-- ==== Sys2Proof/Word.lean ====
section
/-! DEFINITION. The word types of the block and of the chip (00_scope.md R8, R10). -/

namespace Sys2Proof

/-- A byte of a transaction buffer, of the wire, or of an 8-bit chip register (`DATA_W` = 8). -/
abbrev Byte := BitVec 8

/-- A 16-bit raw sample (`SAMPLE_W` = 16). -/
abbrev Half := BitVec 16

/-- The response data word (`SW` = 32). -/
abbrev Word := BitVec 32

/-- A device address (`DEVADDR_W` = 2). -/
abbrev DevAddr := BitVec 2

/-- A register address (`REGADDR_W` = 4). -/
abbrev RegAddr := BitVec 4

/-- A fast-command opcode (`FASTOP_W` = 6). -/
abbrev FastOp := BitVec 6

end Sys2Proof
end

