-- ==== Sys2Proof/Syntax.lean ====
section
/-! DEFINITION. The instructions: one constructor per row of spec/opcode_table.json. The six wire commands of the chip
(43_slave_decode.md), the nine request rows (30_encoding.md R98, R99), and the two rows without an encoding. -/

namespace Sys2Proof

inductive Instr where
  /-- FAST_START, format F: command byte `AA101000` (43_slave_decode.md R177). -/
  | fastStart (a : DevAddr)
  /-- FAST_RESET, format F: command byte `AA111000` (R178). -/
  | fastReset (a : DevAddr)
  /-- FAST_OTHER, format F: `op[1:0] = 00` and not one of the two above (R176). -/
  | fastOther (a : DevAddr) (op : FastOp)
  /-- XT01, format R with transfer type `01` (R176). -/
  | xt01 (a : DevAddr) (ra : RegAddr)
  /-- INCW, format R with transfer type `10` (R180). -/
  | incw (a : DevAddr) (ra : RegAddr)
  /-- INCR, format R with transfer type `11` (R182). -/
  | incr (a : DevAddr) (ra : RegAddr)
  /-- REFUSED: `priv = 0` with `opsel` 0 to 3; `sel` is `opsel[1:0]`, `a` and `d` the request's other fields
  (60_exceptions.md R206). -/
  | refused (sel : BitVec 2) (a : BitVec 6) (d : Byte)
  /-- FASTCMD op (40_primitives.md R122). -/
  | fastcmd (op : FastOp)
  /-- WREG8 ra, v (R124). -/
  | wreg8 (ra : RegAddr) (v : Byte)
  /-- RREG8 ra (R126). -/
  | rreg8 (ra : RegAddr)
  /-- RREG16 ra (R128). -/
  | rreg16 (ra : RegAddr)
  /-- RESET (41_public_ops.md R142). -/
  | reset
  /-- CONVERT ch (R144). -/
  | convert (ch : BitVec 4)
  /-- READS16 (R146). -/
  | reads16
  /-- DRDY (R148). -/
  | drdy
  /-- CONSTRUCT A: no request word; started by the release of `rst` (R140). -/
  | construct (a : DevAddr)
  /-- SEXT16 raw: no encoding of its own (42_sign_extend.md R160). -/
  | sext16 (raw : Half)
deriving DecidableEq, Repr

/-- A request as the host writes it, operands not yet truncated (30_encoding.md R104). -/
inductive TextRequest where
  | fastcmd (op : Nat)
  | wreg8 (ra v : Nat)
  | rreg8 (ra : Nat)
  | rreg16 (ra : Nat)
  | reset
  | convert (ch : Nat)
  | reads16
  | drdy
deriving DecidableEq, Repr

/-- Why a string of bytes is no instruction. -/
inductive DecodeError where
  /-- Neither one byte (CMD8) nor three bytes (REQ18). -/
  | badLength (n : Nat)
  /-- Three bytes with a bit above bit 17 set: no 18-bit request word (30_encoding.md R98). -/
  | badHighBits
deriving DecidableEq, Repr

/-- One row of the opcode table: a word of `width` bits matches it when its bits under `mask` equal `pattern`. -/
structure OpcodeRow where
  mnemonic : String
  width : Nat
  pattern : Nat
  mask : Nat
deriving DecidableEq, Repr

end Sys2Proof
end

