-- ==== Sys2Proof/WellFormed.lean ====
section
/-! DEFINITION. Which terms of `Instr` are instructions. Every operand but one is held to its field by its type; FAST_OTHER's
opcode must end in `00` and be none of the two documented opcodes (30_encoding.md R93, R100). -/

namespace Sys2Proof

/-- `op[1:0] = 00`: the byte is a fast command (30_encoding.md R93). -/
def fastOpIsFast (op : FastOp) : Bool := op.extractLsb' 0 2 == 0#2

/-- The opcode is none of `OP_START`, `OP_RESET` (30_encoding.md R100 (b)). -/
def fastOpIsOther (op : FastOp) : Bool := op != 0x28#6 && op != 0x38#6

def Instr.wellFormed : Instr → Bool
  | .fastOther _ op => fastOpIsFast op && fastOpIsOther op
  | .fastStart _ => true
  | .fastReset _ => true
  | .xt01 _ _ => true
  | .incw _ _ => true
  | .incr _ _ => true
  | .refused _ _ _ => true
  | .fastcmd _ => true
  | .wreg8 _ _ => true
  | .rreg8 _ => true
  | .rreg16 _ => true
  | .reset => true
  | .convert _ => true
  | .reads16 => true
  | .drdy => true
  | .construct _ => true
  | .sext16 _ => true

end Sys2Proof
end

