-- ==== Sys2Proof/Decode.lean ====
section
/-! DEFINITION. The two encodings of 30_encoding.md, CMD8 (R90 to R93) and REQ18 (R98, R99): decoder, encoder, and the opcode
table as data. -/

namespace Sys2Proof

/-- CMD8: the command byte as the chip reads it (30_encoding.md R90 to R93, 43_slave_decode.md R172). Every byte is one of the
six wire commands. -/
def decodeCmd8 (c : Byte) : Instr :=
  let a := c.extractLsb' 6 2
  let op := c.extractLsb' 0 6
  let ra := c.extractLsb' 2 4
  if c.extractLsb' 0 2 = 0#2 then
    if op = 0x28#6 then .fastStart a
    else if op = 0x38#6 then .fastReset a
    else .fastOther a op
  else if c.extractLsb' 0 2 = 1#2 then .xt01 a ra
  else if c.extractLsb' 0 2 = 2#2 then .incw a ra
  else .incr a ra

/-- REQ18: the request word (30_encoding.md R98, R99). There is no illegal word (R101); unused fields are ignored, and bits 5
to 4 of `a` are dropped for a register address and a channel (R96). -/
def decodeReq18 (w : BitVec 18) : Instr :=
  let priv := w.extractLsb' 17 1
  let opsel := w.extractLsb' 14 3
  let a := w.extractLsb' 8 6
  let low := w.extractLsb' 8 4
  let d := w.extractLsb' 0 8
  if opsel = 4#3 then .reset
  else if opsel = 5#3 then .convert low
  else if opsel = 6#3 then .reads16
  else if opsel = 7#3 then .drdy
  else if priv = 0#1 then .refused (w.extractLsb' 14 2) a d
  else if opsel = 0#3 then .fastcmd a
  else if opsel = 1#3 then .wreg8 low d
  else if opsel = 2#3 then .rreg8 low
  else .rreg16 low

/-- The decoder over bytes: one byte is a CMD8 command byte; three bytes, least significant first, are a REQ18 word whose bits
above bit 17 are 0 (log 22). -/
def decode : List Byte → Except DecodeError Instr
  | [c] => .ok (decodeCmd8 c)
  | [b0, b1, b2] =>
    if b2.extractLsb' 2 6 = 0#6 then .ok (decodeReq18 (b2.extractLsb' 0 2 ++ b1 ++ b0)) else .error .badHighBits
  | bs => .error (.badLength bs.length)

/-- A command byte of format F or R is the device address over six low bits (30_encoding.md R91, R92). -/
def encodeCmd8 (a : DevAddr) (low : BitVec 6) : Byte := a ++ low

/-- A request word from its four fields (30_encoding.md R98). -/
def encodeReq18 (priv : BitVec 1) (opsel : BitVec 3) (a : BitVec 6) (d : Byte) : BitVec 18 := priv ++ opsel ++ a ++ d

/-- The CMD8 byte of a wire command; none for the other instructions. -/
def Instr.cmd8? : Instr → Option Byte
  | .fastStart a => some (encodeCmd8 a 0b101000#6)
  | .fastReset a => some (encodeCmd8 a 0b111000#6)
  | .fastOther a op => some (encodeCmd8 a op)
  | .xt01 a ra => some (encodeCmd8 a (ra ++ 0b01#2))
  | .incw a ra => some (encodeCmd8 a (ra ++ 0b10#2))
  | .incr a ra => some (encodeCmd8 a (ra ++ 0b11#2))
  | .refused _ _ _ => none
  | .fastcmd _ => none
  | .wreg8 _ _ => none
  | .rreg8 _ => none
  | .rreg16 _ => none
  | .reset => none
  | .convert _ => none
  | .reads16 => none
  | .drdy => none
  | .construct _ => none
  | .sext16 _ => none

/-- The REQ18 word of a request, every unused field 0; none for the other instructions. -/
def Instr.req18? : Instr → Option (BitVec 18)
  | .refused sel a d => some (encodeReq18 0#1 (0#1 ++ sel) a d)
  | .fastcmd op => some (encodeReq18 1#1 0#3 op 0#8)
  | .wreg8 ra v => some (encodeReq18 1#1 1#3 (0#2 ++ ra) v)
  | .rreg8 ra => some (encodeReq18 1#1 2#3 (0#2 ++ ra) 0#8)
  | .rreg16 ra => some (encodeReq18 1#1 3#3 (0#2 ++ ra) 0#8)
  | .reset => some (encodeReq18 0#1 4#3 0#6 0#8)
  | .convert ch => some (encodeReq18 0#1 5#3 (0#2 ++ ch) 0#8)
  | .reads16 => some (encodeReq18 0#1 6#3 0#6 0#8)
  | .drdy => some (encodeReq18 0#1 7#3 0#6 0#8)
  | .fastStart _ => none
  | .fastReset _ => none
  | .fastOther _ _ => none
  | .xt01 _ _ => none
  | .incw _ _ => none
  | .incr _ _ => none
  | .construct _ => none
  | .sext16 _ => none

/-- The three bytes of a request word, least significant first, the bits above bit 17 being 0 (log 22). -/
def reqBytes (w : BitVec 18) : List Byte :=
  [w.extractLsb' 0 8, w.extractLsb' 8 8, 0#6 ++ w.extractLsb' 16 2]

/-- The encoder. CONSTRUCT and SEXT16 have no encoding (41_public_ops.md R140, 42_sign_extend.md R160). -/
def encode (i : Instr) : Option (List Byte) :=
  match i.cmd8? with
  | some c => some [c]
  | none => i.req18?.map reqBytes

/-- The textual form of a request as its word, with the privilege bit the line's `!` gives (30_encoding.md R104). Each operand
is truncated to its REQ18 field here (R96, R98); bits 5 to 4 of an address or channel are dropped when the word is decoded. -/
def assemble (priv : Bool) : TextRequest → BitVec 18
  | .fastcmd op => encodeReq18 (BitVec.ofBool priv) 0#3 (BitVec.ofNat 6 op) 0#8
  | .wreg8 ra v => encodeReq18 (BitVec.ofBool priv) 1#3 (BitVec.ofNat 6 ra) (BitVec.ofNat 8 v)
  | .rreg8 ra => encodeReq18 (BitVec.ofBool priv) 2#3 (BitVec.ofNat 6 ra) 0#8
  | .rreg16 ra => encodeReq18 (BitVec.ofBool priv) 3#3 (BitVec.ofNat 6 ra) 0#8
  | .reset => encodeReq18 (BitVec.ofBool priv) 4#3 0#6 0#8
  | .convert ch => encodeReq18 (BitVec.ofBool priv) 5#3 (BitVec.ofNat 6 ch) 0#8
  | .reads16 => encodeReq18 (BitVec.ofBool priv) 6#3 0#6 0#8
  | .drdy => encodeReq18 (BitVec.ofBool priv) 7#3 0#6 0#8

/-- The CMD8 rows of the opcode table in its order: the first that matches is the command. -/
def cmd8Rows : List OpcodeRow :=
  [⟨"FAST_START", 8, 0x28, 0x3F⟩, ⟨"FAST_RESET", 8, 0x38, 0x3F⟩, ⟨"FAST_OTHER", 8, 0x00, 0x03⟩,
   ⟨"XT01", 8, 0x01, 0x03⟩, ⟨"INCW", 8, 0x02, 0x03⟩, ⟨"INCR", 8, 0x03, 0x03⟩]

/-- The REQ18 rows of the opcode table in its order: the first that matches is the request. -/
def req18Rows : List OpcodeRow :=
  [⟨"REFUSED", 18, 0x00000, 0x30000⟩, ⟨"FASTCMD", 18, 0x20000, 0x3C000⟩, ⟨"WREG8", 18, 0x24000, 0x3C000⟩,
   ⟨"RREG8", 18, 0x28000, 0x3C000⟩, ⟨"RREG16", 18, 0x2C000, 0x3C000⟩, ⟨"RESET", 18, 0x10000, 0x1C000⟩,
   ⟨"CONVERT", 18, 0x14000, 0x1C000⟩, ⟨"READS16", 18, 0x18000, 0x1C000⟩, ⟨"DRDY", 18, 0x1C000, 0x1C000⟩]

/-- The mnemonic of the first row a word matches. -/
def firstRow (rows : List OpcodeRow) (w : Nat) : Option String :=
  (rows.find? (fun r => w &&& r.mask == r.pattern)).map OpcodeRow.mnemonic

def Instr.mnemonic : Instr → String
  | .fastStart _ => "FAST_START"
  | .fastReset _ => "FAST_RESET"
  | .fastOther _ _ => "FAST_OTHER"
  | .xt01 _ _ => "XT01"
  | .incw _ _ => "INCW"
  | .incr _ _ => "INCR"
  | .refused _ _ _ => "REFUSED"
  | .fastcmd _ => "FASTCMD"
  | .wreg8 _ _ => "WREG8"
  | .rreg8 _ => "RREG8"
  | .rreg16 _ => "RREG16"
  | .reset => "RESET"
  | .convert _ => "CONVERT"
  | .reads16 => "READS16"
  | .drdy => "DRDY"
  | .construct _ => "CONSTRUCT"
  | .sext16 _ => "SEXT16"

/-- The low `n` bytes of a number, least significant first. -/
def natBytes : Nat → Nat → List Byte
  | 0, _ => []
  | n + 1, w => BitVec.ofNat 8 w :: natBytes n (w / 256)

/-- The instruction whose bits are `w`, numbered as spec/opcode_table.json numbers them: a word of at most 8 bits is a command
byte, a wider one a request word in three bytes; a word that does not fit its bytes is none. -/
def decodeTableWord (nbits w : Nat) : Option Instr :=
  let n := if nbits ≤ 8 then 1 else 3
  if nbits ≤ 24 ∧ w < 256 ^ n then (decode (natBytes n w)).toOption else none

end Sys2Proof
end

