-- ==== Sys2Proof/Config.lean ====
section
/-! DEFINITION. What the spec leaves to the implementation or to the outside (00_scope.md R8: the OPEN parameters and the draws
of R12), each an uninterpreted constant: no proof can see its value. A draw is one of the `free...` constants applied to the
counter `State.draws`, or to a number near it, that no earlier draw was applied to (log 6). -/

namespace Sys2Proof

/-- The transport's answer to one byte exchange (40_primitives.md R121, 10_state.md R34). -/
inductive Xfer where
  /-- `xfer_done`: the byte exchange completes. -/
  | done
  /-- `xfer_done`, with the byte `r` received in place of the one the chip produced (60_exceptions.md R203): no fault. -/
  | wrongByte (r : Byte)
  /-- Neither `xfer_done` nor `xfer_fault` yet (70_reset_and_hazards.md R249): the operation stays where it is. -/
  | wait
  /-- `xfer_fault` before the byte is exchanged: no `Byte` event. -/
  | faultBefore (info : Nat)
  /-- `xfer_fault` after the byte is exchanged: the `Byte` event is in the trace and the received byte is lost. -/
  | faultAfter (info : Nat)
deriving DecidableEq, Repr, Inhabited

/-- The strap `cfg_addr` at the first reset: parameter `A` (R8). -/
opaque Config.deviceAddress : DevAddr

/-- The chip's own device address: parameter `SA` (R8, R35). -/
opaque Config.peerAddress : DevAddr

/-- `draw(1 bit)` (R12). -/
opaque Config.freeBit : Nat → Bool

/-- `draw(4 bits)` (R12). -/
opaque Config.freeNibble : Nat → BitVec 4

/-- `draw(8 bits)` (R12). -/
opaque Config.freeByte : Nat → Byte

/-- `draw(16 bits)` (R12). -/
opaque Config.freeHalf : Nat → Half

/-- `draw(32 bits)` (R12). -/
opaque Config.freeWord : Nat → Word

/-- The transport's answer where the state fixes none (R121; log 4). -/
opaque Config.transportAnswer : Nat → Xfer

/-- How far the draw counter moves at an event that draws: more than any event's draws (log 6). -/
def Config.drawStride : Nat := 8

end Sys2Proof
end

