-- ==== Sys2Proof/Machine/State.lean ====
section
/-! DEFINITION. The state of the block, of the chip it addresses and of what stands at the ports (10_state.md), the reasons a
step can stop, and the state after reset (10_state.md R44, R45). -/

namespace Sys2Proof.Machine

/-- The nine operations of the sequencer (10_state.md R30). -/
inductive Op where
  | fastcmd | wreg8 | rreg8 | rreg16 | reset | convert | reads16 | drdy | construct
deriving DecidableEq, Repr

/-- The phase within an operation's step (10_state.md R30; `init` and `sample` as 41_public_ops.md R140 and R148 have them).
`respond` is the model's own: the operation's last event but the delivery of its response is over (00_scope.md R5; log 1). -/
inductive Phase where
  | init
  | assert
  | byte (i : Nat)
  | deassert
  | sample
  | respond
deriving DecidableEq, Repr

/-- The sequencer position SEQ (10_state.md R30). -/
inductive SeqPos where
  | idle
  | pos (op : Op) (k : Nat) (ph : Phase)
deriving DecidableEq, Repr

/-- PMODE (10_state.md R40). -/
inductive PMode where
  | deselected | awaitCmd | ignore | fastDone | writing | reading
deriving DecidableEq, Repr

/-- CONVST (10_state.md R41). -/
inductive ConvSt where
  | noResult | converting | resultReady
deriving DecidableEq, Repr

/-- An event of the wire trace (00_scope.md section 6). A level is `true` for 1. -/
inductive WireEvent where
  | csFall
  | csRise
  | byte (mosi miso : Byte)
  | drdySample (level : Bool)
deriving DecidableEq, Repr

/-- The peer: the chip's slave-side register interface (10_state.md section 4). -/
structure Peer where
  /-- SA, the chip's own device address (R35). -/
  sa : DevAddr
  /-- ADCDATA, register address 0 (R36). -/
  adcdata : Half
  /-- IRQ, register address 5 (R37). -/
  irq : Byte
  /-- MUX, register address 6 (R38). -/
  mux : Byte
  /-- PMODE (R40). -/
  pmode : PMode
  /-- PTR, the register the next data byte goes to or comes from (R40). -/
  ptr : RegAddr
  /-- PH, the byte index within that register (R40). -/
  ph : BitVec 1
  /-- A data byte has been exchanged in this register access: the model's own, for R188 (log 14). -/
  moved : Bool
  /-- The peer-wide state Unknown (R40, 43_slave_decode.md R170). -/
  unknown : Bool
  /-- CONVST (R41). -/
  convst : ConvSt
  /-- The chip drives the data-ready line low (R41, 43_slave_decode.md R177). -/
  lineLow : Bool
deriving DecidableEq, Repr

/-- The whole state: the block's registers and lines, what stands at its input ports, the peer, the wire trace and the counter
of free values. A one-bit line or flag is a Bool, `true` for 1. -/
structure State where
  /-- ADDRBITS (R21). -/
  addrbits : Byte
  /-- BUF1[0] (R22). -/
  buf10 : Byte
  /-- BUF2[0] (R23). -/
  buf20 : Byte
  /-- BUF2[1] (R23). -/
  buf21 : Byte
  /-- BUF3[0] (R24). -/
  buf30 : Byte
  /-- BUF3[1] (R24). -/
  buf31 : Byte
  /-- BUF3[2] (R24). -/
  buf32 : Byte
  /-- T8 (R25). -/
  t8 : Byte
  /-- T16 (R25). -/
  t16 : Half
  /-- CS: `false` asserts, `true` deasserts (R26). -/
  cs : Bool
  /-- DRDY_PULLUP (R27). -/
  drdyPullup : Bool
  /-- BUSY (R29). -/
  busy : Bool
  /-- SEQ (R30). -/
  seq : SeqPos
  /-- RSP_VALID (R31). -/
  rspValid : Bool
  /-- RSP_STATUS (R31, 60_exceptions.md R201). -/
  rspStatus : BitVec 2
  /-- RSP_DATA (R31). -/
  rspData : Word
  /-- RSP_FAULT_INFO (R31; log 5). -/
  rspFaultInfo : Nat
  /-- FAULTED (R33): set by the first transport fault and never cleared (60_exceptions.md R202; log 19). -/
  faulted : Bool
  /-- The accepted request's field `a` (30_encoding.md R98; log 18). -/
  argA : BitVec 6
  /-- The accepted request's field `d` (30_encoding.md R98; log 18). -/
  argD : Byte
  /-- The level DRDY has sampled, until its response (41_public_ops.md R148, `l`; log 18). -/
  sampled : Bool
  /-- The output of the sign-extender (42_sign_extend.md R161; log 17). -/
  sextOut : Word
  /-- A step is one event of an operation (00_scope.md R5); where `false`, a step runs an operation to its end (log 1). -/
  eventSteps : Bool
  /-- Port `rst`: released, construction not started yet (R34; log 2). -/
  rst : Bool
  /-- Port `cfg_addr` (R34). -/
  cfgAddr : DevAddr
  /-- Ports `req_valid` and `req` (R34; log 2). -/
  req : Option (BitVec 18)
  /-- A byte put on the wire to the selected peer (log 3). -/
  wireIn : Option Byte
  /-- The chip alone has been powered up (R45, 70_reset_and_hazards.md R241; log 20). -/
  chipPowerUp : Bool
  /-- Ports `xfer_done`, `xfer_fault`, `xfer_fault_info`: the transport's coming answers (R34; log 4). -/
  xfers : List Xfer
  /-- The addressed chip. -/
  peer : Peer
  /-- The wire trace, oldest event first (00_scope.md section 6). -/
  trace : List WireEvent
  /-- The counter the free values are applied to (log 6). -/
  draws : Nat
deriving DecidableEq, Repr

/-- Why a step stops. -/
inductive Fault where
  /-- SEQ is at a position that no operation has (10_state.md R30 gives the positions). Raised by `step` only, for a state that
  no run reaches; safe: the machine stops where the spec gives no next position. -/
  | sequencerPosition
deriving DecidableEq, Repr

/-- Why an instruction is not run. -/
inductive Refusal where
  /-- The instruction has no meaning yet. Raised by an arm of `exec`; safe: nothing can be proved of it. No arm raises it now. -/
  | notModelled (mnemonic : String)
deriving DecidableEq, Repr

/-- The peer after power-on (10_state.md R40, R45): registers at their drawn defaults, NoResult, line not driven low, Deselected,
not Unknown. -/
def Peer.reset : Peer where
  sa := Config.peerAddress
  adcdata := Config.freeHalf 0
  irq := Config.freeByte 0
  mux := Config.freeByte 1
  pmode := .deselected
  ptr := 0#4
  ph := 0#1
  moved := false
  unknown := false
  convst := .noResult
  lineLow := false

/-- The state 10_state.md R44 gives: construction has run its initialisation steps, and its RESET has not sent its first byte.
The steps from here finish construction, event by event (log 1, log 7). -/
def State.reset : State where
  addrbits := Config.deviceAddress ++ 0#6
  buf10 := 0#8
  buf20 := 0#8
  buf21 := 0#8
  buf30 := 0#8
  buf31 := 0#8
  buf32 := 0#8
  t8 := 0#8
  t16 := 0#16
  cs := true
  drdyPullup := true
  busy := true
  seq := .pos .construct 1 .assert
  rspValid := false
  rspStatus := 0#2
  rspData := 0#32
  rspFaultInfo := 0
  faulted := false
  argA := 0#6
  argD := 0#8
  sampled := false
  sextOut := 0#32
  eventSteps := true
  rst := false
  cfgAddr := Config.deviceAddress
  req := none
  wireIn := none
  chipPowerUp := false
  xfers := []
  peer := Peer.reset
  trace := []
  draws := Config.drawStride

end Sys2Proof.Machine
end

