-- ==== Sys2Proof/Machine/Chip.lean ====
section
/-! DEFINITION. The peer contract (43_slave_decode.md): what the chip does on the two edges of chip-select and on each byte, its
registers' data phases, and its conversion process. The argument `n` of an event is the number its draws are taken from. -/

namespace Sys2Proof.Machine

/-- A drawn CONVST. -/
def freeConvSt (n : Nat) : ConvSt :=
  if Config.freeBit n then .noResult else if Config.freeBit (n + 1) then .converting else .resultReady

/-- The registers, CONVST and the line drawn afresh: what they are at each use while Unknown (R170). -/
def Peer.forget (n : Nat) (p : Peer) : Peer :=
  { p with adcdata := Config.freeHalf (n + 3), irq := Config.freeByte (n + 3), mux := Config.freeByte (n + 4),
           convst := freeConvSt (n + 3), lineLow := Config.freeBit (n + 5) }

/-- An Unknown peer's registers are drawn afresh; any other peer's stay (R170). -/
def Peer.settle (n : Nat) (p : Peer) : Peer := if p.unknown then p.forget n else p

/-- The peer enters Unknown (R170, R176, R179, R186). -/
def Peer.enterUnknown (p : Peer) : Peer := { p with unknown := true }

/-- An opportunity of the conversion process (R183): while Converting it may finish, which is a draw. -/
def Peer.convert (n : Nat) (p : Peer) : Peer :=
  if p.convst = .converting ∧ Config.freeBit n = true then
    { p with adcdata := Config.freeHalf n, convst := .resultReady, lineLow := true }
  else p

/-- Chip-select falls (R170). -/
def Peer.csFall (p : Peer) : Peer := { p with pmode := .awaitCmd }

/-- The result is taken: no result, line released (R184). -/
def Peer.release (p : Peer) : Peer := { p with convst := .noResult, lineLow := false }

/-- A read that chip-select cuts short: before its first data byte, or inside a 16-bit register (R188). -/
def Peer.readCutShort (p : Peer) : Bool := p.pmode == .reading && (!p.moved || p.ph == 1#1)

/-- Chip-select rises: a last opportunity of the conversion process within the frame (R183), then the frame is over and PTR and PH
are discarded (R170, R188); after a read cut short, whether the ready state was touched is a draw (R188). -/
def Peer.csRise (n : Nat) (p : Peer) : Peer :=
  let c := p.convert (n + 3)
  let q := if c.readCutShort && c.convst == .resultReady && Config.freeBit (n + 1) then c.release else c
  { q with pmode := .deselected, ptr := Config.freeNibble n, ph := BitVec.ofBool (Config.freeBit (n + 2)), moved := false }

/-- FAST_START (R177): a conversion starts; whether a line left low is released at once is a draw. -/
def Peer.fastStart (n : Nat) (p : Peer) : Peer :=
  { p with convst := .converting, pmode := .fastDone,
           lineLow := if p.convst = .noResult then p.lineLow else p.lineLow && Config.freeBit (n + 1) }

/-- FAST_RESET (R178): registers at drawn defaults, no result, line not driven low, no longer Unknown. -/
def Peer.fastReset (n : Nat) (p : Peer) : Peer :=
  { p with adcdata := Config.freeHalf (n + 1), irq := Config.freeByte (n + 1), mux := Config.freeByte (n + 2),
           convst := .noResult, lineLow := false, unknown := false, pmode := .fastDone }

/-- FAST_OTHER (R176): Unknown; the frame's command byte has been taken (log 12). -/
def Peer.fastOther (p : Peer) : Peer := { p.enterUnknown with pmode := .fastDone }

/-- XT01 (R176): Unknown; the frame's command byte has been taken (log 12). -/
def Peer.xt01 (p : Peer) : Peer := { p.enterUnknown with pmode := .fastDone }

/-- INCW (R172, R180): the frame writes from register `ra`. -/
def Peer.beginWrite (ra : RegAddr) (p : Peer) : Peer := { p with pmode := .writing, ptr := ra, ph := 0#1, moved := false }

/-- INCR (R172, R182): the frame reads from register `ra`. -/
def Peer.beginRead (ra : RegAddr) (p : Peer) : Peer := { p with pmode := .reading, ptr := ra, ph := 0#1, moved := false }

/-- A command byte that names another device: the peer takes no action for the whole frame (R174). -/
def Peer.ignoreFrame (p : Peer) : Peer := { p with pmode := .ignore }

/-- A command byte that names device `a` and has the effect `eff` on this peer (R172, R174). -/
def Peer.addressed (n : Nat) (a : DevAddr) (eff p : Peer) : Peer :=
  (if a = p.sa then eff else p.ignoreFrame).settle n

/-- The command byte (R172). Every byte is one of the six wire commands, so the other arms are not reached. -/
def Peer.command (n : Nat) (c : Byte) (p : Peer) : Peer :=
  match decodeCmd8 c with
  | .fastStart a => Peer.addressed n a (p.fastStart n) p
  | .fastReset a => Peer.addressed n a (p.fastReset n) p
  | .fastOther a _ => Peer.addressed n a p.fastOther p
  | .xt01 a _ => Peer.addressed n a p.xt01 p
  | .incw a ra => Peer.addressed n a (p.beginWrite ra) p
  | .incr a ra => Peer.addressed n a (p.beginRead ra) p
  | .refused _ _ _ => p
  | .fastcmd _ => p
  | .wreg8 _ _ => p
  | .rreg8 _ => p
  | .rreg16 _ => p
  | .reset => p
  | .convert _ => p
  | .reads16 => p
  | .drdy => p
  | .construct _ => p
  | .sext16 _ => p

/-- IRQ after the byte `d` is written over `old`: bit 0 is `d`'s; each of bits 7 to 1 takes the written bit or keeps its own, a
draw per bit (10_state.md R37, 43_slave_decode.md R180). -/
def irqWritten (n : Nat) (d old : Byte) : Byte :=
  (d &&& 0x01#8) ||| (((d &&& Config.freeByte (n + 1)) ||| (old &&& ~~~(Config.freeByte (n + 1)))) &&& 0xFE#8)

/-- IRQ as it stands at a read: bit 0 as held, bits 7 to 1 as the chip has them then, a draw (10_state.md R37,
43_slave_decode.md R182; log 11). -/
def irqNow (n : Nat) (held : Byte) : Byte := (held &&& 0x01#8) ||| (Config.freeByte (n + 1) &&& 0xFE#8)

/-- A data byte of an incrementing write (R180, R186): `MemWrite` one byte at a time (20_memory.md R67). -/
def Peer.writeData (n : Nat) (d : Byte) (p : Peer) : Peer :=
  if p.ptr = 5#4 then { p with irq := irqWritten n d p.irq, ptr := 6#4, ph := 0#1, moved := true }
  else if p.ptr = 6#4 then { p with mux := d, ptr := 7#4, ph := 0#1, moved := true }
  else { p.enterUnknown with moved := true }

/-- `AdcdataReadDone` (R184): whether reading ADCDATA releases the line is the draw DRDY_CLEARS_ON_READ. -/
def Peer.adcdataReadDone (n : Nat) (p : Peer) : Peer := if Config.freeBit (n + 1) then p.release else p

/-- One exchange of an incrementing read: the byte returned and the peer after it (R182, R184, R186): `MemRead` one byte at a
time (20_memory.md R66). -/
def Peer.readData (n : Nat) (p : Peer) : Byte × Peer :=
  if p.ptr = 0#4 then
    if p.ph = 0#1 then
      (if p.convst = .resultReady then p.adcdata.extractLsb' 8 8 else Config.freeByte n, { p with ph := 1#1, moved := true })
    else if p.convst = .resultReady then
      (p.adcdata.extractLsb' 0 8, ({ p with ptr := 1#4, ph := 0#1, moved := true } : Peer).adcdataReadDone n)
    else (Config.freeByte n, { p with ptr := 1#4, ph := 0#1, moved := true })
  else if p.ptr = 5#4 then (irqNow n p.irq, { p with irq := irqNow n p.irq, ptr := 6#4, ph := 0#1, moved := true })
  else if p.ptr = 6#4 then (p.mux, { p with ptr := 7#4, ph := 0#1, moved := true })
  else (Config.freeByte n, { p.enterUnknown with moved := true })

/-- One byte exchange at the peer: the byte it returns, computed from its state before it applies `o`, and the peer after
(R171). While Unknown every byte returned is a draw (R170). -/
def Peer.byte (n : Nat) (o : Byte) (p : Peer) : Byte × Peer :=
  match p.pmode with
  | .deselected => (Config.freeByte n, p.settle n)
  | .awaitCmd => (Config.freeByte n, p.command n o)
  | .ignore => (Config.freeByte n, p.settle n)
  | .fastDone => (Config.freeByte n, p.enterUnknown.settle n)
  | .writing => (Config.freeByte n, (p.writeData n o).settle n)
  | .reading => (if p.unknown then Config.freeByte n else (p.readData n).1, (p.readData n).2.settle n)

/-- PH of a chip just powered up whose PTR is `ptr`: a draw, but 0 where 10_state.md R40 gives it no second byte. -/
def freePh (n : Nat) (m : PMode) (ptr : RegAddr) : BitVec 1 :=
  if ptr = 0#4 ∧ m ≠ .writing then BitVec.ofBool (Config.freeBit (n + 2)) else 0#1

/-- The chip alone powers up (10_state.md R45): registers at drawn defaults, no result, the line not driven low, PMODE as the
transaction in progress leaves it, and Unknown ended (43_slave_decode.md R170). PTR and PH are draws (log 20). -/
def Peer.powerUp (n : Nat) (cs : Bool) (p : Peer) : Peer :=
  { p with adcdata := Config.freeHalf (n + 1), irq := Config.freeByte (n + 1), mux := Config.freeByte (n + 2),
           pmode := if cs then .deselected else p.pmode, ptr := Config.freeNibble n,
           ph := freePh n p.pmode (Config.freeNibble n), unknown := false, convst := .noResult, lineLow := false }

end Sys2Proof.Machine
end

