-- ==== Sys2Proof/Machine/Flags.lean ====
section
/-! DEFINITION. The status bits. The block has no condition codes (10_state.md R32): its status is the response status
(60_exceptions.md R201) and the level of the data-ready line it samples (10_state.md R28, R41). -/

namespace Sys2Proof.Machine

/-- RSP_STATUS 0 (60_exceptions.md R201). -/
def statusOk : BitVec 2 := 0#2

/-- RSP_STATUS 1 (60_exceptions.md R201). -/
def statusTransportFault : BitVec 2 := 1#2

/-- RSP_STATUS 2 (60_exceptions.md R201). -/
def statusRefused : BitVec 2 := 2#2

/-- The level of a line the chip does not settle: a draw at a number of its own, which no event takes another draw from (log 6,
log 15). -/
def State.freeLevel (s : State) : Bool := Config.freeBit (s.draws + 6)

/-- The level of the data-ready line now (10_state.md R28, R41): a draw while the peer is Unknown (43_slave_decode.md R170) or
IRQ bit 0 is 1; otherwise low where the chip drives it low, and high through the pull-up where it does not. Without the pull-up
an undriven line's level is a draw (log 15). -/
def State.drdyLevel (s : State) : Bool :=
  if s.peer.unknown || s.peer.irq.getLsbD 0 then s.freeLevel
  else if s.peer.lineLow then false
  else if s.drdyPullup then true
  else s.freeLevel

/-- `zext_32(ready)` with `ready = (level == 0)` (41_public_ops.md R148). -/
def readyWord (level : Bool) : Word := if level then 0#32 else 1#32

end Sys2Proof.Machine
end

