-- ==== Sys2Proof/Machine/Operands.lean ====
section
/-! DEFINITION. Operand and data assembly (30_encoding.md R91, R92, R96, R97), the sign-extender's arithmetic
(42_sign_extend.md R160, R161), the transaction buffers as indexed bytes (00_scope.md R12), and the expansion of every operation
into primitives (30_encoding.md R105). -/

namespace Sys2Proof.Machine

/-- ADDRBITS of a device address: `zext_8(A) << 6` (10_state.md R21). -/
def addrBitsOf (a : DevAddr) : Byte := a.setWidth 8 <<< 6

/-- The format F command byte: `ADDRBITS | zext_8(op)` (30_encoding.md R91). -/
def fastByte (addrbits : Byte) (op : FastOp) : Byte := addrbits ||| op.setWidth 8

/-- The format R command byte: `ADDRBITS | (zext_8(ra) << 2) | xt` (30_encoding.md R92). -/
def regByte (addrbits : Byte) (ra : RegAddr) (xt : BitVec 2) : Byte :=
  addrbits ||| (ra.setWidth 8 <<< 2) ||| xt.setWidth 8

/-- `OP_RESET` (00_scope.md R8). -/
def opReset : FastOp := 0b111000#6

/-- `OP_START` (00_scope.md R8). -/
def opStart : FastOp := 0b101000#6

/-- `XT_WRITE` (00_scope.md R8). -/
def xtWrite : BitVec 2 := 0b10#2

/-- `XT_READ` (00_scope.md R8). -/
def xtRead : BitVec 2 := 0b11#2

/-- `RA_ADCDATA` (00_scope.md R8). -/
def raAdcdata : RegAddr := 0#4

/-- `RA_IRQ` (00_scope.md R8). -/
def raIrq : RegAddr := 5#4

/-- `RA_MUX` (00_scope.md R8). -/
def raMux : RegAddr := 6#4

/-- The MUX value of a channel: `(ch << 4) | 0b1000` (30_encoding.md R97 (a)). -/
def muxValue (ch : BitVec 4) : Byte := (ch.setWidth 8 <<< 4) ||| 0b1000#8

/-- The IRQ value RESET writes back: `V & 0xFE` (30_encoding.md R97 (b)). -/
def irqMasked (v : Byte) : Byte := v &&& 0xFE#8

/-- A 16-bit value from its bytes, high byte first (30_encoding.md R97 (c)). -/
def joinBytes (hi lo : Byte) : Half := hi ++ lo

/-- SEXT16 as the integer it denotes (42_sign_extend.md R160). -/
def sext16Int (raw : Half) : Int := if raw.msb then (raw.toNat : Int) - 65536 else raw.toNat

/-- SEXT16 on the response port: `sext_32(raw)` (42_sign_extend.md R161). -/
def sext16Word (raw : Half) : Word := raw.signExtend 32

/-- The low 4 bits of a 6-bit argument field: bits 5 to 4 are dropped (30_encoding.md R96). -/
def argLow (a : BitVec 6) : BitVec 4 := a.setWidth 4

/-- The transaction buffers (10_state.md R22 to R24). -/
inductive Buf where
  | buf1 | buf2 | buf3
deriving DecidableEq, Repr

/-- A private primitive with its operands (40_primitives.md R122, R124, R126, R128). -/
inductive Prim where
  | fastcmd (op : FastOp)
  | wreg8 (ra : RegAddr) (v : Byte)
  | rreg8 (ra : RegAddr)
  | rreg16 (ra : RegAddr)
deriving DecidableEq, Repr

/-- The buffer a primitive transfers (10_state.md R22 to R24). -/
def primBuf : Prim → Buf
  | .fastcmd _ => .buf1
  | .wreg8 _ _ => .buf2
  | .rreg8 _ => .buf2
  | .rreg16 _ => .buf3

/-- The length of a primitive's transaction (30_encoding.md R94, R95). -/
def primLen : Prim → Nat
  | .fastcmd _ => 1
  | .wreg8 _ _ => 2
  | .rreg8 _ => 2
  | .rreg16 _ => 3

/-- Whether a primitive's transfer keeps the received bytes (40_primitives.md R121). -/
def primCaptures : Prim → Bool
  | .fastcmd _ => false
  | .wreg8 _ _ => false
  | .rreg8 _ => true
  | .rreg16 _ => true

/-- RESET's three steps; `t8` is read in the last (41_public_ops.md R142). -/
def resetStep (k : Nat) (t8 : Byte) : Option Prim :=
  match k with
  | 0 => some (.fastcmd opReset)
  | 1 => some (.rreg8 raIrq)
  | 2 => some (.wreg8 raIrq (irqMasked t8))
  | _ => none

/-- The primitive of an operation's step `k`, from the accepted request's fields and T8 (30_encoding.md R105, R99;
41_public_ops.md R140: construction's steps 1 to 3 are RESET's). -/
def primAt (op : Op) (k : Nat) (argA : BitVec 6) (argD t8 : Byte) : Option Prim :=
  match op, k with
  | .fastcmd, 0 => some (.fastcmd argA)
  | .wreg8, 0 => some (.wreg8 (argLow argA) argD)
  | .rreg8, 0 => some (.rreg8 (argLow argA))
  | .rreg16, 0 => some (.rreg16 (argLow argA))
  | .reset, k => resetStep k t8
  | .convert, 0 => some (.wreg8 raMux (muxValue (argLow argA)))
  | .convert, 1 => some (.fastcmd opStart)
  | .reads16, 0 => some (.rreg16 raAdcdata)
  | .construct, k + 1 => resetStep k t8
  | _, _ => none

/-- Byte `i` of a buffer (00_scope.md R12). -/
def State.bufByte (b : Buf) (i : Nat) (s : State) : Byte :=
  match b, i with
  | .buf1, _ => s.buf10
  | .buf2, 0 => s.buf20
  | .buf2, _ => s.buf21
  | .buf3, 0 => s.buf30
  | .buf3, 1 => s.buf31
  | .buf3, _ => s.buf32

/-- Byte `i` of a buffer replaced (00_scope.md R12). -/
def State.setBufByte (b : Buf) (i : Nat) (v : Byte) (s : State) : State :=
  match b, i with
  | .buf1, _ => { s with buf10 := v }
  | .buf2, 0 => { s with buf20 := v }
  | .buf2, _ => { s with buf21 := v }
  | .buf3, 0 => { s with buf30 := v }
  | .buf3, 1 => { s with buf31 := v }
  | .buf3, _ => { s with buf32 := v }

/-- A primitive's buffer loaded for sending. The placeholder positions of a read are not written (40_primitives.md R122, R124,
R126, R128; D7). -/
def State.load (p : Prim) (s : State) : State :=
  match p with
  | .fastcmd op => { s with buf10 := fastByte s.addrbits op }
  | .wreg8 ra v => { s with buf20 := regByte s.addrbits ra xtWrite, buf21 := v }
  | .rreg8 ra => { s with buf20 := regByte s.addrbits ra xtRead }
  | .rreg16 ra => { s with buf30 := regByte s.addrbits ra xtRead }

/-- The value a primitive returns, put in its temporary (10_state.md R25; 40_primitives.md R126, R128). -/
def State.finish (p : Prim) (s : State) : State :=
  match p with
  | .fastcmd _ => s
  | .wreg8 _ _ => s
  | .rreg8 _ => { s with t8 := s.buf21 }
  | .rreg16 _ => { s with t16 := joinBytes s.buf31 s.buf32 }

/-- Whether an operation has a position (10_state.md R30). -/
def SeqPos.legal : SeqPos → Bool
  | .idle => true
  | .pos op k .init => op == .construct && k == 0
  | .pos op k .sample => op == .drdy && k == 0
  | .pos op k .respond => (op == .drdy && k == 0) ||
      ((primAt op k 0#6 0#8 0#8).isSome && (primAt op (k + 1) 0#6 0#8 0#8).isNone)
  | .pos op k .assert => (primAt op k 0#6 0#8 0#8).isSome
  | .pos op k .deassert => (primAt op k 0#6 0#8 0#8).isSome
  | .pos op k (.byte i) =>
    match primAt op k 0#6 0#8 0#8 with
    | some p => decide (i < primLen p)
    | none => false

end Sys2Proof.Machine
end

