-- ==== Sys2Proof/Machine/Ops.lean ====
section
/-! DEFINITION. The shared operations of the block: the lines, one byte exchange, the transaction micro-sequence
(40_primitives.md R120), taking a transport fault and refusing a request (60_exceptions.md R202, R206), the response, and the
sequencer that runs an operation event by event (00_scope.md R5, 10_state.md R30). -/

namespace Sys2Proof.Machine

/-- An event appended to the wire trace (00_scope.md section 6). -/
def State.emit (e : WireEvent) (s : State) : State := { s with trace := s.trace ++ [e] }

/-- The draw counter moved past every number an event has used (log 6). -/
def State.drawn (s : State) : State := { s with draws := s.draws + Config.drawStride }

/-- The sequencer moved (00_scope.md R12). -/
def State.goto (q : SeqPos) (s : State) : State := { s with seq := q }

/-- Chip-select driven to a level, with the edge in the trace and at the peer when the level changes (00_scope.md R12,
`CsAssert` and `CsDeassert`; 40_primitives.md R130 (b)). -/
def State.driveCs (level : Bool) (s : State) : State :=
  if level = s.cs then s
  else if level then ({ s with cs := true, peer := s.peer.csRise s.draws }.emit .csRise).drawn
  else { s with cs := false, peer := s.peer.csFall }.emit .csFall

/-- An opportunity of the agents inside the chip (43_slave_decode.md R183); an Unknown peer's registers change as they like
(R170). -/
def State.convTick (s : State) : State :=
  { s with peer := (s.peer.convert s.draws).settle s.draws }.drawn

/-- The transport's answer to the next exchange: the first the state fixes, or a free one (log 4). -/
def State.nextAnswer (s : State) : Xfer :=
  match s.xfers with
  | x :: _ => x
  | [] => Config.transportAnswer s.draws

/-- The answer taken. -/
def State.answered (s : State) : State := { s with xfers := s.xfers.tail }.drawn

/-- The byte the master receives when it sends `o` now (43_slave_decode.md R171). -/
def State.received (o : Byte) (s : State) : Byte := (s.peer.byte s.draws o).1

/-- The byte `o` crosses the wire, a joint step of the block and the peer, and the block receives `r` (43_slave_decode.md R171). -/
def State.crossWith (o r : Byte) (s : State) : State :=
  ({ s with peer := (s.peer.byte s.draws o).2 }.emit (.byte o r)).drawn

/-- The byte `o` crosses the wire and the block receives the byte the peer produces. -/
def State.cross (o : Byte) (s : State) : State := s.crossWith o (s.received o)

/-- The response registers written and the operation ended (10_state.md R29, R31). -/
def State.respond (status : BitVec 2) (data : Word) (s : State) : State :=
  { s with rspValid := true, rspStatus := status, rspData := data, seq := .idle, busy := false }

/-- The `count` bytes of a buffer from index `i` on made free: their contents after a fault are unspecified (60_exceptions.md
R202; log 13). -/
def State.spoil (b : Buf) (i : Nat) : Nat → State → State
  | 0, s => s
  | count + 1, s => (State.spoil b (i + 1) count s).setBufByte b i (Config.freeByte (s.draws + i))

/-- TAKING A TRANSPORT FAULT at byte `i` of primitive `p` (60_exceptions.md R202): nothing more is exchanged, chip-select is left
at a free level, a capturing transfer's buffer is unspecified from byte `i` on, T8 and T16 keep their values, and the fault is
reported. Nothing is saved and there is no return (R211, R213). -/
def State.abort (p : Prim) (i info : Nat) (s : State) : State :=
  let s1 := if primCaptures p then (s.spoil (primBuf p) i (primLen p - i)).drawn else s
  let s2 := (s1.driveCs (Config.freeBit s1.draws)).drawn
  { (s2.respond statusTransportFault (Config.freeWord s2.draws)).drawn with rspFaultInfo := info, faulted := true }

/-- A request refused for want of privilege (60_exceptions.md R206). -/
def State.refuse (s : State) : State :=
  { s with rspValid := true, rspStatus := statusRefused, rspData := Config.freeWord s.draws }.drawn

/-- A request accepted (10_state.md R29, R31): BUSY, the response no longer valid, the sequencer at the operation's first
position, the request's arguments held. -/
def State.accept (op : Op) (ph : Phase) (a : BitVec 6) (d : Byte) (s : State) : State :=
  { s with rspValid := false, busy := true, seq := .pos op 0 ph, argA := a, argD := d }

/-- An operation's response delivered (10_state.md R31; 41_public_ops.md R146 for the sign-extended sample, R148 for the level). -/
def State.deliver (op : Op) (s : State) : State :=
  match op with
  | .rreg8 => s.respond statusOk (s.t8.setWidth 32)
  | .rreg16 => s.respond statusOk (s.t16.setWidth 32)
  | .reads16 => { s with sextOut := sext16Word s.t16 }.respond statusOk (sext16Word s.t16)
  | .drdy => s.respond statusOk (readyWord s.sampled)
  | .fastcmd => s.respond statusOk 0#32
  | .wreg8 => s.respond statusOk 0#32
  | .reset => s.respond statusOk 0#32
  | .convert => s.respond statusOk 0#32
  | .construct => s.respond statusOk 0#32

/-- The primitive in progress. -/
def State.prim (op : Op) (k : Nat) (s : State) : Option Prim := primAt op k s.argA s.argD s.t8

/-- Construction's steps 1 to 4 (41_public_ops.md R140): chip-select high, pull-up on, the device address stored from the strap,
the buffers at 0x00. DESIGN CHOICE: what 10_state.md R44 leaves unspecified after them keeps its value (log 24). -/
def State.constructInit (s : State) : State :=
  let t := s.driveCs true
  { t with drdyPullup := true, addrbits := addrBitsOf t.cfgAddr, buf10 := 0#8, buf20 := 0#8, buf21 := 0#8, buf30 := 0#8,
           buf31 := 0#8, buf32 := 0#8, seq := .pos .construct 1 .assert }

/-- The data-ready line sampled (41_public_ops.md R148). -/
def State.sampleDrdy (s : State) : State :=
  ({ s with sampled := s.drdyLevel }.emit (.drdySample s.drdyLevel)).drawn.goto (.pos .drdy 0 .respond)

/-- The start of a transaction: the primitive's buffer loaded, chip-select asserted (40_primitives.md R120). -/
def State.openFrame (op : Op) (k : Nat) (p : Prim) (s : State) : State :=
  ((s.load p).driveCs false).goto (.pos op k (.byte 0))

/-- The sequencer's position after byte `i` of primitive `p` (40_primitives.md R120). -/
def afterByte (op : Op) (k : Nat) (p : Prim) (i : Nat) : SeqPos :=
  if i + 1 < primLen p then .pos op k (.byte (i + 1)) else .pos op k .deassert

/-- Byte `i` exchanged and `r` received: it replaces the sent one on a capturing transfer (40_primitives.md R120, R121). -/
def State.exchanged (op : Op) (k : Nat) (p : Prim) (i : Nat) (r : Byte) (s : State) : State :=
  let t := s.crossWith (s.bufByte (primBuf p) i) r
  (if primCaptures p then t.setBufByte (primBuf p) i r else t).goto (afterByte op k p i)

/-- One byte exchange (00_scope.md R12, `Exchange`): the chip's own agents have their opportunity, the transport answers, and
the byte crosses, faults or waits. The Bool says whether the operation goes on in this step. -/
def State.exchange (op : Op) (k : Nat) (p : Prim) (i : Nat) (s : State) : Bool × State :=
  let s0 := s.convTick
  let s1 := s0.answered
  match s0.nextAnswer with
  | .done => (true, s1.exchanged op k p i (s1.received (s1.bufByte (primBuf p) i)))
  | .wrongByte r => (true, s1.exchanged op k p i r)
  | .wait => (false, s1)
  | .faultBefore info => (true, s1.abort p i info)
  | .faultAfter info => (true, (s1.cross (s1.bufByte (primBuf p) i)).abort p i info)

/-- The sequencer's position after step `k` of an operation: its next step, or its response (30_encoding.md R105). Which steps an
operation has does not depend on its operands. -/
def afterStep (op : Op) (k : Nat) : SeqPos :=
  if (primAt op (k + 1) 0#6 0#8 0#8).isSome then .pos op (k + 1) .assert else .pos op k .respond

/-- The end of a transaction: chip-select deasserted, the primitive's value returned (40_primitives.md R120). -/
def State.closeFrame (op : Op) (k : Nat) (p : Prim) (s : State) : State :=
  ((s.driveCs true).finish p).goto (afterStep op k)

/-- One event of the operation in progress (00_scope.md R5, 10_state.md R30). The Bool is false where there is none. -/
def State.tick (s : State) : Bool × State :=
  match s.seq with
  | .idle => (false, s)
  | .pos _ _ .init => (true, s.constructInit)
  | .pos _ _ .sample => (true, s.sampleDrdy)
  | .pos op _ .respond => (true, s.deliver op)
  | .pos op k .assert =>
    match s.prim op k with
    | some p => (true, s.openFrame op k p)
    | none => (false, s)
  | .pos op k (.byte i) =>
    match s.prim op k with
    | some p => s.exchange op k p i
    | none => (false, s)
  | .pos op k .deassert =>
    match s.prim op k with
    | some p => (true, s.closeFrame op k p)
    | none => (false, s)

/-- Events until the operation has ended or waits for the transport, at most `fuel` of them. -/
def State.run : Nat → State → State
  | 0, s => s
  | fuel + 1, s => if s.tick.1 then State.run fuel s.tick.2 else s.tick.2

/-- More events than any operation has: construction has its initialisation, three frames and its response, 13 events. -/
def runFuel : Nat := 16

/-- The operation in progress run to its response, or to an exchange that the transport has not answered: "every operation
performs its bus transaction to completion before returning" (10_state.md R29, 20_memory.md R71). -/
def State.complete (s : State) : State := s.run runFuel

/-- A wire command byte `c` that names device `a` and has the effect `eff` taken by the peer: as the frame's command byte where
the peer awaits one (43_slave_decode.md R172), and as the byte it is anywhere else. -/
def State.takeCommand (a : DevAddr) (c : Byte) (eff : Peer) (s : State) : State :=
  let q := if s.peer.pmode = .awaitCmd then (Config.freeByte s.draws, Peer.addressed s.draws a eff s.peer)
           else s.peer.byte s.draws c
  ({ s with peer := q.2 }.emit (.byte c q.1)).drawn

/-- The chip alone powers up (log 20). -/
def State.powerUpChip (s : State) : State :=
  { s with peer := s.peer.powerUp s.draws s.cs, chipPowerUp := false }.drawn

end Sys2Proof.Machine
end

