-- ==== Sys2Proof/Machine/Primitives.lean ====
section
/-! DEFINITION. The four private primitives as requests (40_primitives.md), each its acceptance and then its events, and a private primitive requested without privilege
(60_exceptions.md R206). -/

namespace Sys2Proof.Machine

/-- FASTCMD op accepted. -/
def State.acceptFastcmd (op : FastOp) (s : State) : State := s.accept .fastcmd .assert op 0#8

/-- WREG8 ra, v accepted. -/
def State.acceptWreg8 (ra : RegAddr) (v : Byte) (s : State) : State := s.accept .wreg8 .assert (ra.setWidth 6) v

/-- RREG8 ra accepted. -/
def State.acceptRreg8 (ra : RegAddr) (s : State) : State := s.accept .rreg8 .assert (ra.setWidth 6) 0#8

/-- RREG16 ra accepted. -/
def State.acceptRreg16 (ra : RegAddr) (s : State) : State := s.accept .rreg16 .assert (ra.setWidth 6) 0#8

/-- FASTCMD op (40_primitives.md R122). -/
def execFastcmd (op : FastOp) (s : State) : Host.Outcome State Fault Refusal :=
  .next (s.acceptFastcmd op).complete

/-- WREG8 ra, v (R124). -/
def execWreg8 (ra : RegAddr) (v : Byte) (s : State) : Host.Outcome State Fault Refusal :=
  .next (s.acceptWreg8 ra v).complete

/-- RREG8 ra (R126). -/
def execRreg8 (ra : RegAddr) (s : State) : Host.Outcome State Fault Refusal :=
  .next (s.acceptRreg8 ra).complete

/-- RREG16 ra (R128). -/
def execRreg16 (ra : RegAddr) (s : State) : Host.Outcome State Fault Refusal :=
  .next (s.acceptRreg16 ra).complete

/-- REFUSED: a private primitive with `priv = 0`; no step of it runs (60_exceptions.md R206, R212). Which primitive it was and its
arguments make no difference. -/
def execRefused (_sel : BitVec 2) (_a : BitVec 6) (_d : Byte) (s : State) : Host.Outcome State Fault Refusal :=
  .next s.refuse

end Sys2Proof.Machine
end

