-- ==== Sys2Proof/Machine/PublicOps.lean ====
section
/-! DEFINITION. Construction and the four public operations (41_public_ops.md), each its acceptance and then its events, and the sign-extender (42_sign_extend.md). -/

namespace Sys2Proof.Machine

/-- CONSTRUCT A started (41_public_ops.md R140): overrides whatever was in progress (60_exceptions.md R210). DESIGN CHOICE: T8, T16
and the response registers but RSP_VALID, which 10_state.md R44 leaves unspecified here, keep their values (log 24). FAULTED, which is never cleared
(R33, 60_exceptions.md R202), stays as it is (log 19). -/
def State.acceptConstruct (a : DevAddr) (s : State) : State :=
  { s.accept .construct .init 0#6 0#8 with cfgAddr := a }

/-- RESET accepted. -/
def State.acceptReset (s : State) : State := s.accept .reset .assert 0#6 0#8

/-- CONVERT ch accepted. -/
def State.acceptConvert (ch : BitVec 4) (s : State) : State := s.accept .convert .assert (ch.setWidth 6) 0#8

/-- READS16 accepted. -/
def State.acceptReads16 (s : State) : State := s.accept .reads16 .assert 0#6 0#8

/-- DRDY accepted. -/
def State.acceptDrdy (s : State) : State := s.accept .drdy .sample 0#6 0#8

/-- CONSTRUCT A (41_public_ops.md R140). -/
def execConstruct (a : DevAddr) (s : State) : Host.Outcome State Fault Refusal :=
  .next (s.acceptConstruct a).complete

/-- RESET (R142). -/
def execReset (s : State) : Host.Outcome State Fault Refusal :=
  .next s.acceptReset.complete

/-- CONVERT ch (R144). -/
def execConvert (ch : BitVec 4) (s : State) : Host.Outcome State Fault Refusal :=
  .next (s.acceptConvert ch).complete

/-- READS16 (R146). -/
def execReads16 (s : State) : Host.Outcome State Fault Refusal :=
  .next s.acceptReads16.complete

/-- DRDY (R148). -/
def execDrdy (s : State) : Host.Outcome State Fault Refusal :=
  .next s.acceptDrdy.complete

/-- SEXT16 raw: the combinational unit's output; no register is written (42_sign_extend.md R160, R161; log 17). -/
def execSext16 (raw : Half) (s : State) : Host.Outcome State Fault Refusal :=
  .next { s with sextOut := sext16Word raw }

end Sys2Proof.Machine
end

