-- ==== Sys2Proof/Machine/Wire.lean ====
section
/-! DEFINITION. The six wire commands (43_slave_decode.md): each is the exchange of its command byte at the peer. -/

namespace Sys2Proof.Machine

/-- FAST_START (43_slave_decode.md R177). -/
def execFastStart (a : DevAddr) (s : State) : Host.Outcome State Fault Refusal :=
  .next (s.takeCommand a (encodeCmd8 a opStart) (s.peer.fastStart s.draws))

/-- FAST_RESET (R178). -/
def execFastReset (a : DevAddr) (s : State) : Host.Outcome State Fault Refusal :=
  .next (s.takeCommand a (encodeCmd8 a opReset) (s.peer.fastReset s.draws))

/-- FAST_OTHER (R176). -/
def execFastOther (a : DevAddr) (op : FastOp) (s : State) : Host.Outcome State Fault Refusal :=
  .next (s.takeCommand a (encodeCmd8 a op) s.peer.fastOther)

/-- XT01 (R176). -/
def execXt01 (a : DevAddr) (ra : RegAddr) (s : State) : Host.Outcome State Fault Refusal :=
  .next (s.takeCommand a (encodeCmd8 a (ra ++ 0b01#2)) s.peer.xt01)

/-- INCW (R180). -/
def execIncw (a : DevAddr) (ra : RegAddr) (s : State) : Host.Outcome State Fault Refusal :=
  .next (s.takeCommand a (encodeCmd8 a (ra ++ xtWrite)) (s.peer.beginWrite ra))

/-- INCR (R182). -/
def execIncr (a : DevAddr) (ra : RegAddr) (s : State) : Host.Outcome State Fault Refusal :=
  .next (s.takeCommand a (encodeCmd8 a (ra ++ xtRead)) (s.peer.beginRead ra))

end Sys2Proof.Machine
end

