-- ==== Sys2Proof/Machine/Dispatch.lean ====
section
/-! DEFINITION. One arm per instruction. -/

namespace Sys2Proof.Machine

def exec (i : Instr) (s : State) : Host.Outcome State Fault Refusal :=
  match i with
  | .fastStart a => Sys2Proof.Machine.execFastStart a s
  | .fastReset a => Sys2Proof.Machine.execFastReset a s
  | .fastOther a op => Sys2Proof.Machine.execFastOther a op s
  | .xt01 a ra => Sys2Proof.Machine.execXt01 a ra s
  | .incw a ra => Sys2Proof.Machine.execIncw a ra s
  | .incr a ra => Sys2Proof.Machine.execIncr a ra s
  | .refused sel a d => Sys2Proof.Machine.execRefused sel a d s
  | .fastcmd op => Sys2Proof.Machine.execFastcmd op s
  | .wreg8 ra v => Sys2Proof.Machine.execWreg8 ra v s
  | .rreg8 ra => Sys2Proof.Machine.execRreg8 ra s
  | .rreg16 ra => Sys2Proof.Machine.execRreg16 ra s
  | .reset => Sys2Proof.Machine.execReset s
  | .convert ch => Sys2Proof.Machine.execConvert ch s
  | .reads16 => Sys2Proof.Machine.execReads16 s
  | .drdy => Sys2Proof.Machine.execDrdy s
  | .construct a => Sys2Proof.Machine.execConstruct a s
  | .sext16 raw => Sys2Proof.Machine.execSext16 raw s

end Sys2Proof.Machine
end

