-- ==== Sys2Proof/Machine/Fetch.lean ====
section
/-! DEFINITION. Where the machine takes its next instruction from (log 2): the released `rst` port, the wire to the selected
peer, the request port of an idle block; and the two grains of a step, the event and the operation (log 1). -/

namespace Sys2Proof.Machine

/-- What the next step does. -/
inductive Turn where
  /-- The chip alone powers up. -/
  | chipPowerUp
  /-- The operation in progress goes on. -/
  | resume
  /-- A data byte from `wireIn` crosses to the peer. -/
  | wireData (o : Byte)
  /-- An instruction runs. -/
  | instr (i : Instr)
  /-- Nothing stands at any port. -/
  | quiet
deriving DecidableEq, Repr

/-- What stands at the ports, in the order the block heeds it: a power-up of the chip, a released `rst`, which overrides
everything of the block (60_exceptions.md R210), the operation in progress, a byte on the wire, a request, which is accepted only
when `req_ready = 1` (10_state.md R34). -/
def State.turn (s : State) : Turn :=
  if s.chipPowerUp then .chipPowerUp
  else if s.rst then .instr (.construct s.cfgAddr)
  else if s.seq ≠ .idle then .resume
  else
    match s.wireIn with
    | some c => if s.peer.pmode = .awaitCmd then .instr (decodeCmd8 c) else .wireData c
    | none =>
      match s.req with
      | some w => if s.busy then .quiet else .instr (decodeReq18 w)
      | none => .quiet

/-- The port the instruction came from, cleared. -/
def State.taken (s : State) : State :=
  if s.rst then { s with rst := false }
  else if s.wireIn.isSome then { s with wireIn := none }
  else { s with req := none }

/-- The acceptance alone, of an instruction that is an operation of the block (00_scope.md R5). None for the others: a wire
command is one byte exchange, a refused request no event but its response, SEXT16 no event (log 1). -/
def State.accepted (i : Instr) (s : State) : Option State :=
  match i with
  | .fastcmd op => some (s.acceptFastcmd op)
  | .wreg8 ra v => some (s.acceptWreg8 ra v)
  | .rreg8 ra => some (s.acceptRreg8 ra)
  | .rreg16 ra => some (s.acceptRreg16 ra)
  | .reset => some s.acceptReset
  | .convert ch => some (s.acceptConvert ch)
  | .reads16 => some s.acceptReads16
  | .drdy => some s.acceptDrdy
  | .construct a => some (s.acceptConstruct a)
  | .fastStart _ => none
  | .fastReset _ => none
  | .fastOther _ _ => none
  | .xt01 _ _ => none
  | .incw _ _ => none
  | .incr _ _ => none
  | .refused _ _ _ => none
  | .sext16 _ => none

/-- What a step does first of an instruction, where it does not run it whole. -/
def State.begun (i : Instr) (s : State) : Option State := if s.eventSteps then s.accepted i else none

/-- The operation in progress goes on: one event, or all of them (log 1). -/
def State.resumed (s : State) : State := if s.eventSteps then s.tick.2 else s.complete

/-- A data byte from `wireIn` crosses to the peer. -/
def State.wireByte (o : Byte) (s : State) : State := { s with wireIn := none }.cross o

/-- A CMD8 byte put on the wire of a freshly selected peer, the block idle. -/
def State.placeCommand (c : Byte) (s : State) : State :=
  { s with seq := .idle, busy := false, rst := false, chipPowerUp := false, wireIn := some c, cs := false,
           peer := { s.peer with pmode := .awaitCmd } }

/-- A request word put on the request port of an idle block, for a step that runs a whole operation. -/
def State.placeRequest (w : BitVec 18) (s : State) : State :=
  { s with seq := .idle, busy := false, rst := false, chipPowerUp := false, wireIn := none, req := some w, eventSteps := false }

end Sys2Proof.Machine
end

