-- ==== Sys2Proof/Machine/Step.lean ====
section
/-! DEFINITION. One step of the machine: one event (00_scope.md R5), or, where State.eventSteps is off, one whole operation or the
rest of the operation in progress (log 1). -/

namespace Sys2Proof.Machine

/-- One step. The chip's conversion process has an opportunity before it (43_slave_decode.md R183; log 15). -/
def step (s : State) : Host.Outcome State Fault Refusal :=
  match s.turn with
  | .chipPowerUp => .next s.powerUpChip
  | .resume => if s.seq.legal then .next s.convTick.resumed else .fault .sequencerPosition
  | .wireData o => .next (s.convTick.wireByte o)
  | .instr i =>
    match s.convTick.taken.begun i with
    | some t => .next t
    | none => exec i s.convTick.taken
  | .quiet => .next s.convTick

/-- The instruction whose bits are `w` placed where the next step takes it from: a word of at most 8 bits is a command byte on
the wire of a selected peer, a wider one a request word on the request port of an idle block (log 2, log 3). -/
def State.withFetchWord (s : State) (nbits w : Nat) : State :=
  if nbits ≤ 8 then s.placeCommand (BitVec.ofNat 8 w) else s.placeRequest (BitVec.ofNat 18 w)

end Sys2Proof.Machine
end

