-- ==== Sys2Proof/Machine/Ports.lean ====
section
/-! DEFINITION. The output ports of the block (10_state.md R34), each a view of the state. -/

namespace Sys2Proof.Machine

/-- `req_ready = !BUSY`. -/
def State.reqReady (s : State) : Bool := !s.busy

/-- `rsp_valid`. -/
def State.rspValidPort (s : State) : Bool := s.rspValid

/-- `rsp_status`. -/
def State.rspStatusPort (s : State) : BitVec 2 := s.rspStatus

/-- `rsp_data`. -/
def State.rspDataPort (s : State) : Word := s.rspData

/-- `rsp_fault_info`. -/
def State.rspFaultInfoPort (s : State) : Nat := s.rspFaultInfo

/-- `tx_byte` with `tx_capture`, where `tx_valid` is 1: the byte handed to the transport and whether the received byte is kept. -/
def State.txPort (s : State) : Option (Byte × Bool) :=
  match s.seq with
  | .pos op k (.byte i) => (s.prim op k).map fun p => (s.bufByte (primBuf p) i, primCaptures p)
  | .pos _ _ .init => none
  | .pos _ _ .assert => none
  | .pos _ _ .deassert => none
  | .pos _ _ .sample => none
  | .pos _ _ .respond => none
  | .idle => none

/-- `cs_n`. -/
def State.csN (s : State) : Bool := s.cs

/-- `drdy_n`, the level at the block's input now (10_state.md R28): the level a DRDY would sample in this state. DESIGN CHOICE: where
that level is a draw (R41), the view shows one drawn value for each value of the draw counter (log 15). -/
def State.drdyN (s : State) : Bool := s.drdyLevel

/-- `drdy_pullup_en`. -/
def State.drdyPullupEn (s : State) : Bool := s.drdyPullup

end Sys2Proof.Machine
end

