-- ==== Sys2Proof/Safety.lean ====
section
/-! DEFINITION. The terms the claims use: what a whole frame does at the chip, premises on the transport and the chip, the state
every operation leaves alone, counts of wire events, and the invariant of the machine. -/

namespace Sys2Proof

/-- The answer completes the exchange (60_exceptions.md R203: a wrong byte is no fault). -/
def Xfer.completes : Xfer → Bool
  | .done => true
  | .wrongByte _ => true
  | .wait => false
  | .faultBefore _ => false
  | .faultAfter _ => false

/-- The byte the master receives in an exchange that completes, where the chip produces `x` (60_exceptions.md R203). -/
def Xfer.heard (x : Byte) : Xfer → Byte
  | .done => x
  | .wrongByte r => r
  | .wait => x
  | .faultBefore _ => x
  | .faultAfter _ => x

end Sys2Proof

namespace Sys2Proof.Machine

/-- The transport completes each of the next `n` exchanges with the chip's byte. -/
def State.transportDone (n : Nat) (s : State) : Prop := s.xfers.take n = List.replicate n .done

/-- The transport completes each of the next `n` exchanges, with the chip's byte or a wrong one (60_exceptions.md R203). -/
def State.transportCompletes (n : Nat) (s : State) : Prop := n ≤ s.xfers.length ∧ ∀ x ∈ s.xfers.take n, x.completes = true

/-- The byte the master receives in the `i`-th exchange from here, where the chip produces `x`. -/
def State.heard (i : Nat) (x : Byte) (s : State) : Byte := (s.xfers.getD i .done).heard x

/-- The transport has an answer for each of the next `n` exchanges: a byte or a fault (70_reset_and_hazards.md R249). -/
def State.transportAnswers (n : Nat) (s : State) : Prop := n ≤ s.xfers.length ∧ ∀ x ∈ s.xfers.take n, x ≠ .wait

/-- The block stores the device address `a` (10_state.md R21). -/
def State.hasAddress (a : DevAddr) (s : State) : Prop := s.addrbits = addrBitsOf a

/-- The chip of the block's device address is on the bus, its state is not Unknown, and chip-select is high. -/
def State.chipReady (s : State) : Prop := s.hasAddress s.peer.sa ∧ s.peer.unknown = false ∧ s.cs = true

/-- What a run of byte exchanges does at the chip: the bytes it returns, the chip after, and the next draw. -/
structure FrameResult where
  ins : List Byte
  peer : Peer
  draws : Nat
deriving DecidableEq, Repr

/-- The bytes `outs` exchanged one after the other, the chip's own agents having their opportunity before each. -/
def chipBytes : List Byte → Nat → Peer → FrameResult
  | [], n, p => ⟨[], p, n⟩
  | o :: os, n, p =>
    let e := ((p.convert n).settle n).byte (n + 2 * Config.drawStride) o
    let r := chipBytes os (n + 3 * Config.drawStride) e.2
    ⟨e.1 :: r.ins, r.peer, r.draws⟩

/-- One transaction at the chip, chip-select being at level `cs` before it: its fall, which a line already low does not make
(40_primitives.md R130 (b), 60_exceptions.md R204), the bytes, its rise (43_slave_decode.md R170). -/
def chipFrame (cs : Bool) (outs : List Byte) (n : Nat) (p : Peer) : FrameResult :=
  let r := chipBytes outs n (if cs then p.csFall else p)
  ⟨r.ins, r.peer.csRise r.draws, r.draws + Config.drawStride⟩

/-- The fall of chip-select in the trace, where its level was `cs` (40_primitives.md R130 (b)). -/
def fallFrom (cs : Bool) : List WireEvent := if cs then [.csFall] else []

/-- The wire events of a transaction that sends `outs` and receives `ins` (40_primitives.md R130 (a), (b)). -/
def frameEvents (cs : Bool) (outs ins : List Byte) : List WireEvent :=
  fallFrom cs ++ List.zipWith .byte outs ins ++ [.csRise]

/-- `n` steps of the machine, one after the other. -/
def steps : Nat → State → Host.Outcome State Fault Refusal
  | 0, s => .next s
  | n + 1, s =>
    match step s with
    | .next t => steps n t
    | .fault f => .fault f
    | .refused r => .refused r

/-- The step at `s` takes up instruction `i` at state `t`: it runs it whole, or, where a step is one event and `i` an operation of
the block, accepts it (log 1). -/
def State.stepTakesUp (i : Instr) (t s : State) : Prop :=
  (s.eventSteps = false ∨ t.accepted i = none → step s = exec i t) ∧
  (s.eventSteps = true → ∀ u, t.accepted i = some u → step s = .next u)

/-- The operation has ended with a status and a result, and the block is idle (10_state.md R29, R31). -/
def State.ended (status : BitVec 2) (data : Word) (s : State) : State :=
  { s with rspValid := true, rspStatus := status, rspData := data, seq := .idle, busy := false }

/-- Chip-select falls in a piece of the wire trace. -/
def countFalls (t : List WireEvent) : Nat := t.countP (· == .csFall)

/-- Byte exchanges in a piece of the wire trace. -/
def countBytes (t : List WireEvent) : Nat := t.countP fun e => match e with | .byte _ _ => true | .csFall => false | .csRise => false | .drdySample _ => false

/-- Line samples in a piece of the wire trace. -/
def countSamples (t : List WireEvent) : Nat := t.countP fun e => match e with | .drdySample _ => true | .csFall => false | .csRise => false | .byte _ _ => false

/-- A piece of the wire trace holds a full-reset command byte for device `a` (43_slave_decode.md R178). -/
def holdsFullReset (a : DevAddr) (t : List WireEvent) : Prop := ∃ r, WireEvent.byte (encodeCmd8 a opReset) r ∈ t

/-- The data-ready line follows CONVST where the peer is not Unknown (10_state.md R41; while Converting a line left low may stay
low, 43_slave_decode.md R177). -/
def Peer.lineFollows (p : Peer) : Prop :=
  p.unknown = false → (p.convst = .resultReady → p.lineLow = true) ∧ (p.convst = .noResult → p.lineLow = false)

/-- PH is 1 only inside the 16-bit register of a read (10_state.md R40). -/
def Peer.phLegal (p : Peer) : Prop :=
  (p.pmode = .reading → p.ph = 1#1 → p.ptr = 0#4) ∧ (p.pmode = .writing → p.ph = 0#1)

/-- The phases in which a transaction holds chip-select low. -/
def SeqPos.insideFrame : SeqPos → Bool
  | .idle => false
  | .pos _ _ .init => false
  | .pos _ _ .assert => false
  | .pos _ _ .sample => false
  | .pos _ _ .respond => false
  | .pos _ _ (.byte _) => true
  | .pos _ _ .deassert => true

/-- The invariant of the machine: `BUSY = (SEQ != Idle)` (10_state.md R29), SEQ at a position some operation has (R30), no valid
response while BUSY (R31), `ADDRBITS[5:0] = 0` (R21), RSP_STATUS never 3 (R31), the pull-up on (R27), the peer Deselected exactly
while chip-select is high (R40), chip-select low inside a transaction (R26), the line following CONVST (R41) and PH within its
register (R40). -/
structure State.Inv (s : State) : Prop where
  busy_iff : s.busy = true ↔ s.seq ≠ .idle
  seq_legal : s.seq.legal = true
  busy_rsp : s.busy = true → s.rspValid = false
  addr_low : s.addrbits.extractLsb' 0 6 = 0#6
  status_legal : s.rspStatus ≠ 3#2
  pullup : s.drdyPullup = true
  selected_iff : s.peer.pmode = .deselected ↔ s.cs = true
  frame_low : s.seq.insideFrame = true → s.cs = false
  line : s.peer.lineFollows
  ph : s.peer.phLegal

end Sys2Proof.Machine
end

