-- ==== Sys2Proof/Certificates/Slice0/Obligations.lean ====
section
/-! DEFINITION. The statements for the provers. Rule numbers are those of spec/. A free value or a draw count appears only under an
existential: every statement holds for every value of them. -/

open Sys2Proof Sys2Proof.Machine

/-! ## Encodings (30_encoding.md) -/

/-- Every well-formed instruction that has an encoding is what its encoding decodes to, every operand at every value; the two
rows without an encoding, CONSTRUCT (R140) and SEXT16 (R160), are the only ones that encode to nothing. -/
def Obligations.DecodeEncodeAgree : Prop :=
  ∀ i : Instr, i.wellFormed = true →
    (∀ bs, encode i = some bs → decode bs = .ok i) ∧
    (encode i = none ↔ (∃ a, i = .construct a) ∨ ∃ raw, i = .sext16 raw)

/-- Every byte is the command byte of exactly the well-formed wire command the decoder reads from it (R90 to R93, R100). -/
def Obligations.CommandByteHasOneMeaning : Prop :=
  ∀ c : Byte, (decodeCmd8 c).wellFormed = true ∧ (decodeCmd8 c).cmd8? = some c

/-- REQ18 field by field (R98, R99): all eight `opsel` values, `priv` needed for the first four only, unused fields ignored, bits
5 to 4 of an address or channel dropped; without `priv` the first four are the refused request (R101). -/
def Obligations.RequestWordFields : Prop :=
  ∀ (p : BitVec 1) (a : BitVec 6) (d : Byte),
    decodeReq18 (1#1 ++ 0#3 ++ a ++ d) = .fastcmd a ∧
    decodeReq18 (1#1 ++ 1#3 ++ a ++ d) = .wreg8 (a.extractLsb' 0 4) d ∧
    decodeReq18 (1#1 ++ 2#3 ++ a ++ d) = .rreg8 (a.extractLsb' 0 4) ∧
    decodeReq18 (1#1 ++ 3#3 ++ a ++ d) = .rreg16 (a.extractLsb' 0 4) ∧
    decodeReq18 (p ++ 4#3 ++ a ++ d) = .reset ∧
    decodeReq18 (p ++ 5#3 ++ a ++ d) = .convert (a.extractLsb' 0 4) ∧
    decodeReq18 (p ++ 6#3 ++ a ++ d) = .reads16 ∧
    decodeReq18 (p ++ 7#3 ++ a ++ d) = .drdy ∧
    ∀ sel : BitVec 2, decodeReq18 (0#1 ++ (0#1 ++ sel) ++ a ++ d) = .refused sel a d

/-- The decoder reads from every word the instruction of the first row of the opcode table that the word matches. -/
def Obligations.DecoderFollowsOpcodeTable : Prop :=
  (∀ c : Byte, firstRow cmd8Rows c.toNat = some (decodeCmd8 c).mnemonic) ∧
  (∀ w : BitVec 18, firstRow req18Rows w.toNat = some (decodeReq18 w).mnemonic)

/-- Words written out in spec/95_test_vectors.md (3.2, 3.11), one or more of every encoded row, decode to what that file says. -/
def Obligations.DocumentedWordsDecode : Prop :=
  decodeTableWord 8 0b01101000 = some (.fastStart 1#2) ∧
  decodeTableWord 8 0b01111000 = some (.fastReset 1#2) ∧
  decodeTableWord 8 0b01101100 = some (.fastOther 1#2 0b101100#6) ∧
  decodeTableWord 8 0b01010101 = some (.xt01 1#2 5#4) ∧
  decodeTableWord 8 0b01010110 = some (.incw 1#2 5#4) ∧
  decodeTableWord 8 0b01000011 = some (.incr 1#2 0#4) ∧
  decodeTableWord 24 0x08500 = some (.refused 2#2 5#6 0#8) ∧
  decodeTableWord 24 0x22800 = some (.fastcmd 0x28#6) ∧
  decodeTableWord 24 0x24628 = some (.wreg8 6#4 0x28#8) ∧
  decodeTableWord 24 0x29500 = some (.rreg8 5#4) ∧
  decodeTableWord 24 0x2C000 = some (.rreg16 0#4) ∧
  decodeTableWord 24 0x13FFF = some .reset ∧
  decodeTableWord 24 0x15000 = some (.convert 0#4) ∧
  decodeTableWord 24 0x18000 = some .reads16 ∧
  decodeTableWord 24 0x3C000 = some .drdy

/-- R103's table: the command bytes of the public operations for each of the four device addresses. -/
def Obligations.PublicCommandBytes : Prop :=
  (fun a : DevAddr => fastByte (addrBitsOf a) opReset) <$> [0#2, 1#2, 2#2, 3#2] = [0x38#8, 0x78#8, 0xB8#8, 0xF8#8] ∧
  (fun a : DevAddr => fastByte (addrBitsOf a) opStart) <$> [0#2, 1#2, 2#2, 3#2] = [0x28#8, 0x68#8, 0xA8#8, 0xE8#8] ∧
  (fun a : DevAddr => regByte (addrBitsOf a) raIrq xtRead) <$> [0#2, 1#2, 2#2, 3#2] = [0x17#8, 0x57#8, 0x97#8, 0xD7#8] ∧
  (fun a : DevAddr => regByte (addrBitsOf a) raIrq xtWrite) <$> [0#2, 1#2, 2#2, 3#2] = [0x16#8, 0x56#8, 0x96#8, 0xD6#8] ∧
  (fun a : DevAddr => regByte (addrBitsOf a) raMux xtWrite) <$> [0#2, 1#2, 2#2, 3#2] = [0x1A#8, 0x5A#8, 0x9A#8, 0xDA#8] ∧
  (fun a : DevAddr => regByte (addrBitsOf a) raAdcdata xtRead) <$> [0#2, 1#2, 2#2, 3#2] = [0x03#8, 0x43#8, 0x83#8, 0xC3#8]

/-- R131: for every primitive and operands, the command byte under address `a` is the one under address 0 with `a` in bits 7 to 6,
and every other byte sent is the same. -/
def Obligations.AddressNeverLeaks : Prop :=
  ∀ (p : Prim) (s : State) (a : DevAddr),
    let t := State.load p { s with addrbits := addrBitsOf a }
    let t0 := State.load p { s with addrbits := addrBitsOf 0#2 }
    t.bufByte (primBuf p) 0 = a ++ (t0.bufByte (primBuf p) 0).extractLsb' 0 6 ∧
    (t0.bufByte (primBuf p) 0).extractLsb' 6 2 = 0#2 ∧
    ∀ i, 0 < i → i < primLen p → t.bufByte (primBuf p) i = t0.bufByte (primBuf p) i

/-! ## The private primitives (40_primitives.md): the whole next state -/

/-- FASTCMD (R122): one transaction of one byte, `ADDRBITS | op`, kept in BUF1; everything not named is unchanged. -/
def Obligations.FastcmdResult : Prop :=
  ∀ (op : FastOp) (s : State), s.transportCompletes 1 →
    ∃ x p n, chipFrame s.cs [s.addrbits ||| op.setWidth 8] s.draws s.peer = ⟨[x], p, n⟩ ∧
      exec (.fastcmd op) s = .next (State.ended statusOk 0#32
        { s with buf10 := s.addrbits ||| op.setWidth 8, cs := true, peer := p, draws := n, argA := op, argD := 0#8,
                 xfers := s.xfers.drop 1,
                 trace := s.trace ++ (fallFrom s.cs ++ [.byte (s.addrbits ||| op.setWidth 8) (s.heard 0 x), .csRise]) })

/-- WREG8 (R124): one write-only transaction, the command byte with transfer type `10` and the value, both kept in BUF2. -/
def Obligations.Wreg8Result : Prop :=
  ∀ (ra : RegAddr) (v : Byte) (s : State), s.transportCompletes 2 →
    let c := s.addrbits ||| (ra.setWidth 8 <<< 2) ||| 0b10#8
    ∃ x y p n, chipFrame s.cs [c, v] s.draws s.peer = ⟨[x, y], p, n⟩ ∧
      exec (.wreg8 ra v) s = .next (State.ended statusOk 0#32
        { s with buf20 := c, buf21 := v, cs := true, peer := p, draws := n, argA := ra.setWidth 6, argD := v,
                 xfers := s.xfers.drop 2,
                 trace := s.trace ++ (fallFrom s.cs ++ [.byte c (s.heard 0 x), .byte v (s.heard 1 y), .csRise]) })

/-- RREG8 (R126): the command byte with transfer type `11`, then the stale BUF2[1] as placeholder; both received bytes replace
BUF2, a wrong one as well (R203); the second is returned in T8 and, zero-extended, in RSP_DATA. -/
def Obligations.Rreg8Result : Prop :=
  ∀ (ra : RegAddr) (s : State), s.transportCompletes 2 →
    let c := s.addrbits ||| (ra.setWidth 8 <<< 2) ||| 0b11#8
    ∃ x y p n, chipFrame s.cs [c, s.buf21] s.draws s.peer = ⟨[x, y], p, n⟩ ∧
      exec (.rreg8 ra) s = .next (State.ended statusOk ((s.heard 1 y).setWidth 32)
        { s with buf20 := s.heard 0 x, buf21 := s.heard 1 y, t8 := s.heard 1 y, cs := true, peer := p, draws := n,
                 argA := ra.setWidth 6, argD := 0#8, xfers := s.xfers.drop 2,
                 trace := s.trace ++ (fallFrom s.cs ++ [.byte c (s.heard 0 x), .byte s.buf21 (s.heard 1 y), .csRise]) })

/-- RREG16 (R128): as RREG8 with three bytes; the two trailing received bytes are joined high byte first in T16 and,
zero-extended, in RSP_DATA. -/
def Obligations.Rreg16Result : Prop :=
  ∀ (ra : RegAddr) (s : State), s.transportCompletes 3 →
    let c := s.addrbits ||| (ra.setWidth 8 <<< 2) ||| 0b11#8
    ∃ x y z p n, chipFrame s.cs [c, s.buf31, s.buf32] s.draws s.peer = ⟨[x, y, z], p, n⟩ ∧
      let hi := s.heard 1 y
      let lo := s.heard 2 z
      exec (.rreg16 ra) s = .next (State.ended statusOk ((hi ++ lo).setWidth 32)
        { s with buf30 := s.heard 0 x, buf31 := hi, buf32 := lo, t16 := hi ++ lo, cs := true, peer := p, draws := n,
                 argA := ra.setWidth 6, argD := 0#8, xfers := s.xfers.drop 3,
                 trace := s.trace ++ (fallFrom s.cs ++
                   [.byte c (s.heard 0 x), .byte s.buf31 hi, .byte s.buf32 lo, .csRise]) })

/-! ## Construction and the public operations (41_public_ops.md) -/

/-- RESET (R142): three transactions, the byte read written back with bit 0 cleared; buffers, T8 and response as the rule says, the
chip as the three leave it, everything else of the block unchanged. -/
def Obligations.ResetResult : Prop :=
  ∀ s : State, s.transportCompletes 5 →
    ∃ x0 x1 x2 x3 x4 p1 p2 p n1 n2 n,
      let v := s.heard 2 x2
      chipFrame s.cs [s.addrbits ||| 0x38#8] s.draws s.peer = ⟨[x0], p1, n1⟩ ∧
      chipFrame true [s.addrbits ||| 0x17#8, s.buf21] n1 p1 = ⟨[x1, x2], p2, n2⟩ ∧
      chipFrame true [s.addrbits ||| 0x16#8, v &&& 0xFE#8] n2 p2 = ⟨[x3, x4], p, n⟩ ∧
      exec .reset s = .next (State.ended statusOk 0#32
        { s with buf10 := s.addrbits ||| 0x38#8, buf20 := s.addrbits ||| 0x16#8, buf21 := v &&& 0xFE#8, t8 := v, cs := true,
                 peer := p, draws := n, argA := 0#6, argD := 0#8, xfers := s.xfers.drop 5,
                 trace := s.trace ++ (fallFrom s.cs ++ [.byte (s.addrbits ||| 0x38#8) (s.heard 0 x0), .csRise,
                   .csFall, .byte (s.addrbits ||| 0x17#8) (s.heard 1 x1), .byte s.buf21 v, .csRise,
                   .csFall, .byte (s.addrbits ||| 0x16#8) (s.heard 3 x3), .byte (v &&& 0xFE#8) (s.heard 4 x4), .csRise]) })

/-- RESET is its expansion (30_encoding.md R105): FASTCMD 0x38, RREG8 5 giving V, WREG8 5 with V & 0xFE, one after the other, end in
the same state but for the request's argument latches. -/
def Obligations.ResetIsItsExpansion : Prop :=
  ∀ s : State, s.transportCompletes 5 →
    ∃ s1 s2 s3, exec (.fastcmd 0x38#6) s = .next s1 ∧ exec (.rreg8 5#4) s1 = .next s2 ∧
      exec (.wreg8 5#4 (s2.t8 &&& 0xFE#8)) s2 = .next s3 ∧
      exec .reset s = .next { s3 with argA := 0#6, argD := 0#8 }

/-- CONVERT (R144): MUX written with the channel in bits 7 to 4 over `1000`, then the start command; the chip as the two
transactions leave it. -/
def Obligations.ConvertResult : Prop :=
  ∀ (ch : BitVec 4) (s : State), s.transportCompletes 3 →
    ∃ x0 x1 x2 p1 p n1 n,
      chipFrame s.cs [s.addrbits ||| 0x1A#8, ch ++ 0b1000#4] s.draws s.peer = ⟨[x0, x1], p1, n1⟩ ∧
      chipFrame true [s.addrbits ||| 0x28#8] n1 p1 = ⟨[x2], p, n⟩ ∧
      exec (.convert ch) s = .next (State.ended statusOk 0#32
        { s with buf20 := s.addrbits ||| 0x1A#8, buf21 := ch ++ 0b1000#4, buf10 := s.addrbits ||| 0x28#8, cs := true,
                 peer := p, draws := n, argA := ch.setWidth 6, argD := 0#8, xfers := s.xfers.drop 3,
                 trace := s.trace ++ (fallFrom s.cs ++
                   [.byte (s.addrbits ||| 0x1A#8) (s.heard 0 x0), .byte (ch ++ 0b1000#4) (s.heard 1 x1), .csRise,
                    .csFall, .byte (s.addrbits ||| 0x28#8) (s.heard 2 x2), .csRise]) })

/-- CONVERT is its expansion (30_encoding.md R105): WREG8 6, (ch << 4) | 0x8, then FASTCMD 0x28. -/
def Obligations.ConvertIsItsExpansion : Prop :=
  ∀ (ch : BitVec 4) (s : State), s.transportCompletes 3 →
    ∃ s1 s2, exec (.wreg8 6#4 ((ch.setWidth 8 <<< 4) ||| 0x8#8)) s = .next s1 ∧ exec (.fastcmd 0x28#6) s1 = .next s2 ∧
      exec (.convert ch) s = .next { s2 with argA := ch.setWidth 6, argD := 0#8 }

/-- READS16 (R146): one transaction of three bytes reading register 0; T16 is the raw value and RSP_DATA its sign extension, which
is also the sign-extender's output. -/
def Obligations.Reads16Result : Prop :=
  ∀ s : State, s.transportCompletes 3 →
    ∃ x y z p n, chipFrame s.cs [s.addrbits ||| 0x03#8, s.buf31, s.buf32] s.draws s.peer = ⟨[x, y, z], p, n⟩ ∧
      let hi := s.heard 1 y
      let lo := s.heard 2 z
      exec .reads16 s = .next (State.ended statusOk ((hi ++ lo).signExtend 32)
        { s with buf30 := s.heard 0 x, buf31 := hi, buf32 := lo, t16 := hi ++ lo, sextOut := (hi ++ lo).signExtend 32, cs := true,
                 peer := p, draws := n, argA := 0#6, argD := 0#8, xfers := s.xfers.drop 3,
                 trace := s.trace ++ (fallFrom s.cs ++
                   [.byte (s.addrbits ||| 0x03#8) (s.heard 0 x), .byte s.buf31 hi, .byte s.buf32 lo, .csRise]) })

/-- DRDY (R148): one sample of the line, 1 exactly when it reads 0; no line, buffer, temporary or chip register changes. -/
def Obligations.DrdyResult : Prop :=
  ∀ s : State, ∃ n, exec .drdy s = .next (State.ended statusOk (if s.drdyLevel = false then 1#32 else 0#32)
    { s with argA := 0#6, argD := 0#8, sampled := s.drdyLevel, draws := n, trace := s.trace ++ [.drdySample s.drdyLevel] })

/-- CONSTRUCT (R140, R44): from any state whatever, with chip-select at either level, construction raises chip-select, turns the
pull-up on, stores the address, zeroes the buffers, runs RESET's three transactions and ends with an OK response; that the rise is
in the trace and FAULTED stays as it was (R33) is the model's reading (log 19). The chip is as that rise and the three leave it, and at a chip of this address the
conversion-start interrupt is disabled, with no result and the line not driven low (R37, R178). That T16 and RSP_FAULT_INFO keep
their values through a construction is the model's choice (log 24). -/
def Obligations.ConstructResult : Prop :=
  ∀ (a : DevAddr) (s : State), s.transportCompletes 5 →
    let n0 := if s.cs then s.draws else s.draws + Config.drawStride
    let p0 := if s.cs then s.peer else s.peer.csRise s.draws
    ∃ x0 x1 x2 x3 x4 p1 p2 p n1 n2 n,
      let v := s.heard 2 x2
      chipFrame true [a ++ 0x38#6] n0 p0 = ⟨[x0], p1, n1⟩ ∧
      chipFrame true [a ++ 0x17#6, 0#8] n1 p1 = ⟨[x1, x2], p2, n2⟩ ∧
      chipFrame true [a ++ 0x16#6, v &&& 0xFE#8] n2 p2 = ⟨[x3, x4], p, n⟩ ∧
      exec (.construct a) s = .next (State.ended statusOk 0#32
        { s with cs := true, drdyPullup := true, addrbits := a ++ 0#6, cfgAddr := a,
                 buf10 := a ++ 0x38#6, buf20 := a ++ 0x16#6, buf21 := v &&& 0xFE#8, buf30 := 0#8, buf31 := 0#8, buf32 := 0#8,
                 t8 := v, peer := p, draws := n, argA := 0#6, argD := 0#8, xfers := s.xfers.drop 5,
                 trace := s.trace ++ ((if s.cs then [] else [.csRise]) ++
                   [.csFall, .byte (a ++ 0x38#6) (s.heard 0 x0), .csRise,
                    .csFall, .byte (a ++ 0x17#6) (s.heard 1 x1), .byte 0#8 v, .csRise,
                    .csFall, .byte (a ++ 0x16#6) (s.heard 3 x3), .byte (v &&& 0xFE#8) (s.heard 4 x4), .csRise]) }) ∧
      (a = s.peer.sa → p.irq.getLsbD 0 = false ∧ p.convst = .noResult ∧ p.lineLow = false ∧ p.unknown = false) ∧
      p.sa = s.peer.sa ∧ p.pmode = .deselected

/-- A private primitive requested without privilege (R206): every request word with `priv = 0` and `opsel` 0 to 3 is refused, in
every state; status REFUSED with unspecified data, and nothing else changes. -/
def Obligations.RefusedResult : Prop :=
  (∀ w : BitVec 18, w.extractLsb' 17 1 = 0#1 → (w.extractLsb' 14 3).toNat ≤ 3 → ∃ sel a d, decodeReq18 w = .refused sel a d) ∧
  ∀ (sel : BitVec 2) (a : BitVec 6) (d : Byte) (s : State),
    ∃ v n, exec (.refused sel a d) s = .next { s with rspValid := true, rspStatus := 2#2, rspData := v, draws := n }

/-! ## The sign-extender (42_sign_extend.md) -/

/-- SEXT16 (R160): total; no register is written; the output denotes `raw - 65536` where bit 15 is set and `raw` elsewhere, within
-32768 to 32767; it has no encoding. -/
def Obligations.Sext16Result : Prop :=
  ∀ (raw : Half) (s : State), encode (.sext16 raw) = none ∧ ∃ w : Word, exec (.sext16 raw) s = .next { s with sextOut := w } ∧
    w.toInt = (if raw.getLsbD 15 then (raw.toNat : Int) - 65536 else raw.toNat) ∧ -32768 ≤ w.toInt ∧ w.toInt ≤ 32767

/-- R161: the word READS16 puts on the response port has `raw` in bits 15 to 0 and its top bit in all of bits 31 to 16; the integer
does not depend on the result's width, and at width 16 the pattern does not change. -/
def Obligations.Sext16Bits : Prop :=
  (∀ s : State, (s.deliver .reads16).rspData = sext16Word s.t16) ∧
  ∀ raw : Half, (sext16Word raw).extractLsb' 0 16 = raw ∧
    (∀ i, 16 ≤ i → i < 32 → (sext16Word raw).getLsbD i = raw.getLsbD 15) ∧
    (∀ sw, 16 ≤ sw → (raw.signExtend sw).toInt = sext16Int raw) ∧ raw.signExtend 16 = raw

/-- R162: the identity below 0x8000 and `raw - 0x10000` from there on; a bijection onto -32768 to 32767 that is the raw value
modulo 65536; it never traps. -/
def Obligations.Sext16Bijection : Prop :=
  (∀ raw : Half, raw.toNat ≤ 0x7FFF → sext16Int raw = raw.toNat) ∧
  (∀ raw : Half, 0x8000 ≤ raw.toNat → sext16Int raw = raw.toNat - 0x10000) ∧
  (∀ x y : Half, sext16Int x = sext16Int y → x = y) ∧
  (∀ raw : Half, -32768 ≤ sext16Int raw ∧ sext16Int raw ≤ 32767) ∧
  (∀ z : Int, -32768 ≤ z → z ≤ 32767 → ∃ raw : Half, sext16Int raw = z) ∧
  (∀ raw : Half, sext16Int raw % 65536 = raw.toNat) ∧
  (∀ (raw : Half) (s : State), ∃ t, exec (.sext16 raw) s = .next t ∧ t.sextOut.toInt = sext16Int raw)

/-! ## The wire commands (43_slave_decode.md) -/

/-- FAST_START addressed to the chip (R177): a conversion starts, ADCDATA and every register stay; a line left low may or may not
be released. -/
def Obligations.FastStartResult : Prop :=
  ∀ (a : DevAddr) (s : State), s.peer.pmode = .awaitCmd → s.peer.sa = a → s.peer.unknown = false →
    ∃ r l n, exec (.fastStart a) s = .next { s with
        peer := { s.peer with convst := .converting, pmode := .fastDone, lineLow := l }, draws := n,
        trace := s.trace ++ [.byte (a ++ 0b101000#6) r] } ∧
      (l = true → s.peer.lineLow = true) ∧ (s.peer.convst = .noResult → l = s.peer.lineLow)

/-- FAST_RESET addressed to the chip, Unknown or not (R178): the three registers at drawn defaults, no result, the line not driven
low, no longer Unknown, SA unchanged. -/
def Obligations.FastResetResult : Prop :=
  ∀ (a : DevAddr) (s : State), s.peer.pmode = .awaitCmd → s.peer.sa = a →
    ∃ r adc irq mux n, exec (.fastReset a) s = .next { s with
        peer := { s.peer with adcdata := adc, irq := irq, mux := mux, convst := .noResult, lineLow := false, unknown := false,
                              pmode := .fastDone }, draws := n,
        trace := s.trace ++ [.byte (a ++ 0b111000#6) r] }

/-- FAST_OTHER and XT01 addressed to the chip (R176): it goes to Unknown; nothing of the block changes. -/
def Obligations.UnknownCommandResult : Prop :=
  ∀ (a : DevAddr) (s : State), s.peer.pmode = .awaitCmd → s.peer.sa = a →
    (∀ op : FastOp, ∃ r p n, exec (.fastOther a op) s = .next { s with peer := p, draws := n, trace := s.trace ++ [.byte (a ++ op) r] } ∧
      p.unknown = true ∧ p.sa = a) ∧
    (∀ ra : RegAddr, ∃ r p n, exec (.xt01 a ra) s =
        .next { s with peer := p, draws := n, trace := s.trace ++ [.byte (a ++ (ra ++ 0b01#2)) r] } ∧
      p.unknown = true ∧ p.sa = a)

/-- INCW and INCR addressed to the chip (R172, R180, R182): the frame writes or reads from register `ra`, first byte; no register
changes. -/
def Obligations.RegisterCommandResult : Prop :=
  ∀ (a : DevAddr) (ra : RegAddr) (s : State), s.peer.pmode = .awaitCmd → s.peer.sa = a → s.peer.unknown = false →
    (∃ r n, exec (.incw a ra) s = .next { s with
      peer := { s.peer with pmode := .writing, ptr := ra, ph := 0#1, moved := false }, draws := n,
      trace := s.trace ++ [.byte (a ++ (ra ++ 0b10#2)) r] }) ∧
    (∃ r n, exec (.incr a ra) s = .next { s with
      peer := { s.peer with pmode := .reading, ptr := ra, ph := 0#1, moved := false }, draws := n,
      trace := s.trace ++ [.byte (a ++ (ra ++ 0b11#2)) r] })

/-- A command byte that names another device (R174): the chip ignores the frame and none of its registers changes. -/
def Obligations.OtherDeviceCommandIgnored : Prop :=
  ∀ (i : Instr) (c : Byte) (s : State), i.wellFormed = true → i.cmd8? = some c → s.peer.pmode = .awaitCmd →
    c.extractLsb' 6 2 ≠ s.peer.sa → s.peer.unknown = false →
    ∃ r n, exec i s = .next { s with peer := { s.peer with pmode := .ignore }, draws := n, trace := s.trace ++ [.byte c r] }

/-- A wire command's meaning is what the chip does with its command byte in the block's own byte exchange (R171, R172), in every
state of the chip. -/
def Obligations.WireCommandIsTheExchange : Prop :=
  ∀ (i : Instr) (c : Byte) (s : State), i.wellFormed = true → i.cmd8? = some c → exec i s = .next (s.cross c)

/-- Data bytes of an incrementing write (R180): IRQ bit 0 takes the written bit and each other bit the written bit or its own; MUX
takes the byte; the pointer moves to the next address; no other register changes. -/
def Obligations.WriteDataBytes : Prop :=
  ∀ (d : Byte) (s : State), s.peer.pmode = .writing → s.peer.unknown = false →
    (s.peer.ptr = 5#4 → ∃ irq, (s.cross d).peer = { s.peer with irq := irq, ptr := 6#4, ph := 0#1, moved := true } ∧
      irq.getLsbD 0 = d.getLsbD 0 ∧ ∀ b, b < 8 → irq.getLsbD b = d.getLsbD b ∨ irq.getLsbD b = s.peer.irq.getLsbD b) ∧
    (s.peer.ptr = 6#4 → (s.cross d).peer = { s.peer with mux := d, ptr := 7#4, ph := 0#1, moved := true }) ∧
    (s.peer.ptr ≠ 5#4 → s.peer.ptr ≠ 6#4 → (s.cross d).peer.unknown = true)

/-- Bytes of an incrementing read (R182, R184) and its end (R188): ADCDATA high byte first where a result is ready, with the release
of the line free after the second; with no result ready its two bytes are passed with nothing but the pointer changed; IRQ with
bit 0 as held; MUX; anywhere else the chip goes to Unknown. What the block sends makes no difference. The rise of chip-select, no
conversion being in progress, changes no register, and the ready state only where it cuts the read short. -/
def Obligations.ReadDataBytes : Prop :=
  ∀ (pp : Byte) (s : State), s.peer.pmode = .reading → s.peer.unknown = false →
    (s.peer.ptr = 0#4 → s.peer.convst = .resultReady → s.peer.ph = 0#1 →
      s.received pp = s.peer.adcdata.extractLsb' 8 8 ∧ (s.cross pp).peer = { s.peer with ph := 1#1, moved := true }) ∧
    (s.peer.ptr = 0#4 → s.peer.convst = .resultReady → s.peer.ph = 1#1 →
      s.received pp = s.peer.adcdata.extractLsb' 0 8 ∧
      ((s.cross pp).peer = { s.peer with ptr := 1#4, ph := 0#1, moved := true } ∨
       (s.cross pp).peer = { s.peer with ptr := 1#4, ph := 0#1, moved := true, convst := .noResult, lineLow := false })) ∧
    (s.peer.ptr = 0#4 → s.peer.convst ≠ .resultReady → s.peer.ph = 0#1 →
      (s.cross pp).peer = { s.peer with ph := 1#1, moved := true }) ∧
    (s.peer.ptr = 0#4 → s.peer.convst ≠ .resultReady → s.peer.ph = 1#1 →
      (s.cross pp).peer = { s.peer with ptr := 1#4, ph := 0#1, moved := true }) ∧
    (s.peer.ptr = 5#4 → s.received pp = (s.cross pp).peer.irq ∧ (s.received pp).getLsbD 0 = s.peer.irq.getLsbD 0 ∧
      ∃ irq, (s.cross pp).peer = { s.peer with irq := irq, ptr := 6#4, ph := 0#1, moved := true }) ∧
    (s.peer.ptr = 6#4 → s.received pp = s.peer.mux ∧ (s.cross pp).peer = { s.peer with ptr := 7#4, ph := 0#1, moved := true }) ∧
    (s.peer.ptr ≠ 0#4 → s.peer.ptr ≠ 5#4 → s.peer.ptr ≠ 6#4 → (s.cross pp).peer.unknown = true) ∧
    (s.cs = false → s.peer.convst ≠ .converting → ∃ ptr ph c l,
      (s.driveCs true).peer = { s.peer with pmode := .deselected, ptr := ptr, ph := ph, moved := false, convst := c, lineLow := l } ∧
      (c = s.peer.convst ∧ l = s.peer.lineLow ∨
       (s.peer.moved = false ∨ s.peer.ph = 1#1) ∧ s.peer.convst = .resultReady ∧ c = .noResult ∧ l = false))

/-- Bytes at a chip that is not in a command or data phase (R170, R174, R179): a deselected chip, and one whose frame names another
device, take no action; one that has taken a fast command goes to Unknown. -/
def Obligations.BytesOutsideADataPhase : Prop :=
  ∀ (o : Byte) (s : State),
    (s.peer.pmode = .deselected ∨ s.peer.pmode = .ignore → s.peer.unknown = false → (s.cross o).peer = s.peer) ∧
    (s.peer.pmode = .fastDone → (s.cross o).peer.unknown = true ∧ (s.cross o).peer.sa = s.peer.sa)

/-! ## The block and the chip together -/

/-- CONVERT at a ready chip of this address (R144, R177, R181, R183): MUX holds the channel over analog ground, a conversion is in
progress or has ended with the line low, IRQ is as it was. That IRQ bits 7 to 1 stay between two reads is the model's choice (log 11). -/
def Obligations.ConvertStartsTheChannel : Prop :=
  ∀ (ch : BitVec 4) (s : State), s.chipReady → s.transportDone 3 →
    ∃ t, exec (.convert ch) s = .next t ∧ t.peer.mux = ch ++ 0b1000#4 ∧ t.peer.irq = s.peer.irq ∧
      (t.peer.convst = .converting ∨ t.peer.convst = .resultReady ∧ t.peer.lineLow = true) ∧
      t.peer.unknown = false ∧ t.peer.pmode = .deselected

/-- RESET at a chip of this address, Unknown or not (R142, R178, R37): the conversion-start interrupt is disabled, there is no
result, the line is not driven low, the chip is not Unknown. -/
def Obligations.ResetDisablesStartInterrupt : Prop :=
  ∀ s : State, s.cs = true → s.hasAddress s.peer.sa → s.transportDone 5 →
    ∃ t, exec .reset s = .next t ∧ t.peer.irq.getLsbD 0 = false ∧ t.peer.convst = .noResult ∧ t.peer.lineLow = false ∧
      t.peer.unknown = false ∧ t.peer.pmode = .deselected

/-- READS16 with a result ready (R146, R182, R184): the response denotes ADCDATA in two's complement; the registers stay; the
ready state is either cleared with the line released, or as it was.
That IRQ bits 7 to 1 stay between two reads is the model's choice (log 11). -/
def Obligations.Reads16ReturnsTheResult : Prop :=
  ∀ s : State, s.chipReady → s.transportDone 3 → s.peer.convst = .resultReady →
    ∃ t, exec .reads16 s = .next t ∧ t.t16 = s.peer.adcdata ∧ t.rspData.toInt = s.peer.adcdata.toInt ∧
      t.peer.adcdata = s.peer.adcdata ∧ t.peer.irq = s.peer.irq ∧ t.peer.mux = s.peer.mux ∧ t.peer.unknown = false ∧
      (t.peer.convst = .noResult ∧ t.peer.lineLow = false ∨ t.peer.convst = .resultReady ∧ t.peer.lineLow = s.peer.lineLow)

/-- `MemWrite` (R67) through WREG8 at a ready chip: IRQ bit 0 takes the written bit and each other bit the written one or its own;
MUX takes the byte; the other of the two registers stays. That IRQ bits 7 to 1 stay between two reads is the model's choice (log 11). -/
def Obligations.Wreg8WritesTheRegister : Prop :=
  ∀ (v : Byte) (s : State), s.chipReady → s.transportDone 2 →
    (∃ t, exec (.wreg8 5#4 v) s = .next t ∧ t.peer.irq.getLsbD 0 = v.getLsbD 0 ∧ t.peer.mux = s.peer.mux ∧
      ∀ b, b < 8 → t.peer.irq.getLsbD b = v.getLsbD b ∨ t.peer.irq.getLsbD b = s.peer.irq.getLsbD b) ∧
    (∃ t, exec (.wreg8 6#4 v) s = .next t ∧ t.peer.mux = v ∧ t.peer.irq = s.peer.irq)

/-- `MemRead` (R66) at a ready chip: RREG8 5 returns IRQ as it stands then, bit 0 as held; RREG8 6 returns MUX; RREG16 0 with a
result ready returns ADCDATA; RREG16 5 returns IRQ in the high byte and MUX in the low one (R64). RREG8 0 ends inside ADCDATA
(R64, R188): with a result ready it returns the high byte, changes no register, and leaves the ready state as it was or cleared
with the line released; with none it changes no register but by the end of a conversion in progress. That IRQ holds the bits 7 to
1 that were read, and keeps them between two reads, is the model's choice (log 11). -/
def Obligations.RregReadsTheRegister : Prop :=
  ∀ s : State, s.chipReady → s.transportDone 3 →
    (∃ t, exec (.rreg8 5#4) s = .next t ∧ t.t8 = t.peer.irq ∧ t.t8.getLsbD 0 = s.peer.irq.getLsbD 0 ∧ t.peer.mux = s.peer.mux) ∧
    (∃ t, exec (.rreg8 6#4) s = .next t ∧ t.t8 = s.peer.mux ∧ t.peer.mux = s.peer.mux ∧ t.peer.irq = s.peer.irq) ∧
    (s.peer.convst = .resultReady → ∃ t, exec (.rreg16 0#4) s = .next t ∧ t.t16 = s.peer.adcdata) ∧
    (∃ t, exec (.rreg16 5#4) s = .next t ∧ t.t16 = t.peer.irq ++ s.peer.mux ∧
      t.peer.irq.getLsbD 0 = s.peer.irq.getLsbD 0 ∧ t.peer.mux = s.peer.mux) ∧
    (∃ t, exec (.rreg8 0#4) s = .next t ∧ t.peer.irq = s.peer.irq ∧ t.peer.mux = s.peer.mux ∧ t.peer.unknown = false ∧
      (s.peer.convst = .resultReady → t.t8 = s.peer.adcdata.extractLsb' 8 8 ∧ t.peer.adcdata = s.peer.adcdata ∧
        (t.peer.convst = .noResult ∧ t.peer.lineLow = false ∨
         t.peer.convst = .resultReady ∧ t.peer.lineLow = s.peer.lineLow)) ∧
      (s.peer.convst = .noResult → t.peer.adcdata = s.peer.adcdata ∧ t.peer.convst = .noResult ∧
        t.peer.lineLow = s.peer.lineLow))

/-- An access that reaches an address the source gives no register, by the command byte or by the pointer, or a write to ADCDATA
(R186): the chip goes to Unknown, and the block
completes as for any other address. -/
def Obligations.UndescribedAccessGoesUnknown : Prop :=
  ∀ (ra : RegAddr) (v : Byte) (s : State), s.chipReady → s.transportDone 3 →
    (ra ≠ 5#4 → ra ≠ 6#4 → ∃ t, exec (.wreg8 ra v) s = .next t ∧ t.peer.unknown = true ∧ t.rspStatus = statusOk) ∧
    (ra ≠ 0#4 → ra ≠ 5#4 → ra ≠ 6#4 → ∃ t, exec (.rreg8 ra) s = .next t ∧ t.peer.unknown = true ∧ t.rspStatus = statusOk) ∧
    (ra ≠ 0#4 → ra ≠ 5#4 → ∃ t, exec (.rreg16 ra) s = .next t ∧ t.peer.unknown = true ∧ t.rspStatus = statusOk)

/-- Frames for another device (R174): no operation of a block whose address is not the chip's changes the chip's registers, its
conversion state or its line, where no conversion is in progress. That IRQ bits 7 to 1 stay between two reads is the model's choice (log 11). -/
def Obligations.OtherDeviceUntouched : Prop :=
  ∀ (i : Instr) (a : DevAddr) (s : State),
    i ∈ [Instr.reset, .reads16] ∨ (∃ ch, i = .convert ch) ∨ (∃ op, i = .fastcmd op) ∨ (∃ ra v, i = .wreg8 ra v) ∨
      (∃ ra, i = .rreg8 ra) ∨ (∃ ra, i = .rreg16 ra) →
    s.cs = true → s.hasAddress a → a ≠ s.peer.sa → s.peer.unknown = false → s.peer.convst ≠ .converting → s.transportDone 5 →
    ∃ t, exec i s = .next t ∧ t.peer.adcdata = s.peer.adcdata ∧ t.peer.irq = s.peer.irq ∧ t.peer.mux = s.peer.mux ∧
      t.peer.convst = s.peer.convst ∧ t.peer.lineLow = s.peer.lineLow ∧ t.peer.unknown = false

/-- The public operations never send a byte without meaning (R176, R186): a ready chip is not Unknown after any of them. -/
def Obligations.PublicOperationsKeepTheChipKnown : Prop :=
  ∀ (i : Instr) (s : State), i ∈ [Instr.reset, .reads16, .drdy] ∨ (∃ ch, i = .convert ch) → s.chipReady → s.transportDone 5 →
    ∃ t, exec i s = .next t ∧ t.peer.unknown = false

/-- DRDY tells whether the chip drives the line low, where the conversion-start interrupt is disabled, the chip is not Unknown and
the pull-up is on (R41, R148). -/
def Obligations.DrdyTellsTheLine : Prop :=
  ∀ s : State, s.peer.unknown = false → s.peer.irq.getLsbD 0 = false → s.drdyPullup = true →
    ∃ t, exec .drdy s = .next t ∧ t.peer = s.peer ∧ (t.rspData = 1#32 ↔ s.peer.lineLow = true) ∧
      (t.rspData = 0#32 ↔ s.peer.lineLow = false)

/-- The placeholder bytes make no difference (R126, R128): with chip-select high, whatever the transport answers, RREG8 and RREG16
leave the same response, temporaries and chip whatever the stale bytes of their buffer were. -/
def Obligations.PlaceholdersDoNotMatter : Prop :=
  ∀ (ra : RegAddr) (b c : Byte) (s : State), s.cs = true →
    (∃ t u, exec (.rreg8 ra) s = .next t ∧ exec (.rreg8 ra) { s with buf21 := b } = .next u ∧
      u.rspStatus = t.rspStatus ∧ u.rspData = t.rspData ∧ u.t8 = t.t8 ∧ u.peer = t.peer ∧ u.seq = t.seq) ∧
    (∃ t u, exec (.rreg16 ra) s = .next t ∧ exec (.rreg16 ra) { s with buf31 := b, buf32 := c } = .next u ∧
      u.rspStatus = t.rspStatus ∧ u.rspData = t.rspData ∧ u.t16 = t.t16 ∧ u.peer = t.peer ∧ u.seq = t.seq)

/-- R248's table: the transactions, byte exchanges, chip-select falls and line samples of every operation. -/
def Obligations.EventCounts : Prop :=
  ∀ (s : State) (op : FastOp) (ra : RegAddr) (v : Byte) (ch : BitVec 4) (a : DevAddr), s.cs = true → s.transportDone 5 →
    ∀ e ∈ [(Instr.fastcmd op, 1, 1, 0), (.wreg8 ra v, 1, 2, 0), (.rreg8 ra, 1, 2, 0), (.rreg16 ra, 1, 3, 0), (.reset, 3, 5, 0),
           (.convert ch, 2, 3, 0), (.reads16, 1, 3, 0), (.drdy, 0, 0, 1), (.construct a, 3, 5, 0)],
      ∃ t ev, exec e.1 s = .next t ∧ t.trace = s.trace ++ ev ∧ countFalls ev = e.2.1 ∧ countBytes ev = e.2.2.1 ∧
        countSamples ev = e.2.2.2

/-- R249: every operation ends, idle and with a response, whenever the transport answers each exchange with a byte or a fault; from
any state, and from any position an operation has stopped at. That it ends in one step, or in at most 13 where a step is one
event, counts the model's own steps, with its phase `respond`: the model's choice (log 1). -/
def Obligations.OperationsEnd : Prop :=
  (∀ (s : State) (op : FastOp) (ra : RegAddr) (v : Byte) (ch : BitVec 4) (a : DevAddr), s.transportAnswers 5 →
    ∀ i ∈ [Instr.fastcmd op, .wreg8 ra v, .rreg8 ra, .rreg16 ra, .reset, .convert ch, .reads16, .drdy, .construct a],
      ∃ t, exec i s = .next t ∧ t.seq = .idle ∧ t.busy = false ∧ t.rspValid = true ∧
        (t.rspStatus = statusOk ∨ t.rspStatus = statusTransportFault)) ∧
  ∀ s : State, s.turn = .resume → s.seq.legal = true → s.transportAnswers 5 →
    ∃ n t, n ≤ 13 ∧ (s.eventSteps = false → n = 1) ∧ steps n s = .next t ∧ t.seq = .idle ∧ t.busy = false ∧
      t.rspValid = true ∧ (t.rspStatus = statusOk ∨ t.rspStatus = statusTransportFault)

/-! ## Transport faults (60_exceptions.md R202, R204) -/

/-- A fault before byte `i` crosses, at any exchange of any operation in progress (R202): no byte event, status 1 with the
transport's value, FAULTED, idle; T8, T16 and the address bits keep their values, as do the bytes before `i` of the buffer in use;
chip-select ends at a level the spec leaves open, its rise in the trace. That a write-only transfer's buffer keeps all its bytes,
and that a high level drawn is an edge in the trace, is the model's reading (log 13). -/
def Obligations.FaultBeforeByte : Prop :=
  ∀ (s : State) (op : Op) (k i info : Nat) (p : Prim) (xs : List Xfer), s.turn = .resume → s.seq = .pos op k (.byte i) →
    s.prim op k = some p → i < primLen p → s.cs = false → s.xfers = .faultBefore info :: xs →
    ∃ t, step s = .next t ∧ t.seq = .idle ∧ t.busy = false ∧ t.rspValid = true ∧ t.rspStatus = 1#2 ∧ t.rspFaultInfo = info ∧
      t.faulted = true ∧ t.t8 = s.t8 ∧ t.t16 = s.t16 ∧ t.addrbits = s.addrbits ∧ t.drdyPullup = s.drdyPullup ∧ t.xfers = xs ∧
      t.trace = s.trace ++ (if t.cs then [.csRise] else []) ∧
      (∀ b, b ≠ primBuf p → ∀ j, t.bufByte b j = s.bufByte b j) ∧
      ∀ j, j < primLen p → (j < i ∨ primCaptures p = false) → t.bufByte (primBuf p) j = s.bufByte (primBuf p) j

/-- A fault after byte `i` has crossed (R121, R202): as before, with the byte sent and the byte received in the trace. That a
write-only transfer's buffer keeps all its bytes, and that a high level drawn is an edge in the trace, is the model's reading
(log 13). -/
def Obligations.FaultAfterByte : Prop :=
  ∀ (s : State) (op : Op) (k i info : Nat) (p : Prim) (xs : List Xfer), s.turn = .resume → s.seq = .pos op k (.byte i) →
    s.prim op k = some p → i < primLen p → s.cs = false → s.xfers = .faultAfter info :: xs →
    ∃ t r, step s = .next t ∧ t.seq = .idle ∧ t.busy = false ∧ t.rspValid = true ∧ t.rspStatus = 1#2 ∧ t.rspFaultInfo = info ∧
      t.faulted = true ∧ t.t8 = s.t8 ∧ t.t16 = s.t16 ∧ t.addrbits = s.addrbits ∧ t.drdyPullup = s.drdyPullup ∧ t.xfers = xs ∧
      t.trace = s.trace ++ .byte (s.bufByte (primBuf p) i) r :: (if t.cs then [.csRise] else []) ∧
      (∀ b, b ≠ primBuf p → ∀ j, t.bufByte b j = s.bufByte b j) ∧
      ∀ j, j < primLen p → (j < i ∨ primCaptures p = false) → t.bufByte (primBuf p) j = s.bufByte (primBuf p) j

/-- R202's example: a CONVERT that faults before the byte of its second frame has written MUX and not started a conversion. That
BUF1 keeps the byte sent, and that a high level of chip-select is an edge in the trace, is the model's reading (log 13). -/
def Obligations.ConvertFaultKeepsTheWrite : Prop :=
  ∀ (ch : BitVec 4) (info : Nat) (xs : List Xfer) (s : State), s.chipReady → s.peer.convst = .noResult →
    s.xfers = .done :: .done :: .faultBefore info :: xs →
    ∃ t x y, exec (.convert ch) s = .next t ∧ t.rspStatus = 1#2 ∧ t.rspFaultInfo = info ∧ t.faulted = true ∧ t.seq = .idle ∧
      t.peer.mux = ch ++ 0b1000#4 ∧ t.peer.convst = .noResult ∧ t.buf20 = s.addrbits ||| 0x1A#8 ∧ t.buf21 = ch ++ 0b1000#4 ∧
      t.buf10 = s.addrbits ||| 0x28#8 ∧
      t.trace = s.trace ++ [.csFall, .byte (s.addrbits ||| 0x1A#8) x, .byte (ch ++ 0b1000#4) y, .csRise, .csFall] ++
        (if t.cs then [.csRise] else [])

/-- R204, R130 (b): with chip-select left low by a fault, the next transaction, of a primitive or the first of a public operation,
makes no fall: its bytes follow what is in the trace, command byte first, and its end raises chip-select; the operation's further
transactions fall and rise as ever. -/
def Obligations.FrameAfterFaultHasNoFall : Prop :=
  ∀ (op : FastOp) (ra : RegAddr) (v : Byte) (ch : BitVec 4) (s : State), s.cs = false → s.transportCompletes 5 →
    ∀ e ∈ [(Instr.fastcmd op, s.addrbits ||| op.setWidth 8, 1, 0),
           (.wreg8 ra v, s.addrbits ||| (ra.setWidth 8 <<< 2) ||| 0b10#8, 2, 0),
           (.rreg8 ra, s.addrbits ||| (ra.setWidth 8 <<< 2) ||| 0b11#8, 2, 0),
           (.rreg16 ra, s.addrbits ||| (ra.setWidth 8 <<< 2) ||| 0b11#8, 3, 0),
           (.reset, s.addrbits ||| 0x38#8, 1, 2), (.convert ch, s.addrbits ||| 0x1A#8, 2, 1),
           (.reads16, s.addrbits ||| 0x03#8, 3, 0)],
      ∃ t r bs ev, exec e.1 s = .next t ∧ t.trace = s.trace ++ (.byte e.2.1 r :: bs ++ .csRise :: ev) ∧
        bs.length + 1 = e.2.2.1 ∧ countBytes bs = bs.length ∧ countFalls ev = e.2.2.2 ∧
        t.cs = true ∧ t.peer.pmode = .deselected ∧ t.rspStatus = statusOk

/-- A transport that has not answered (R249): the operation stays in progress at its byte, with nothing on the wire. Only the chip's
own agents may act: they end a conversion in progress (R183), or draw an Unknown chip's registers afresh (R170). That a known
chip's IRQ bits 7 to 1 do not change by themselves between two reads is the model's choice (log 11). -/
def Obligations.UnansweredExchangeWaits : Prop :=
  ∀ (s : State) (op : Op) (k i : Nat) (p : Prim) (xs : List Xfer), s.turn = .resume → s.seq = .pos op k (.byte i) →
    s.prim op k = some p → i < primLen p → s.xfers = .wait :: xs →
    ∃ q n, step s = .next { s with peer := q, draws := n, xfers := xs } ∧
      (s.peer.unknown = false → q = s.peer ∨
        s.peer.convst = .converting ∧ ∃ d, q = { s.peer with adcdata := d, convst := .resultReady, lineLow := true }) ∧
      (s.peer.unknown = true → ∃ adc irq mux c l,
        q = { s.peer with adcdata := adc, irq := irq, mux := mux, convst := c, lineLow := l })

/-! ## Reset and the ports -/

/-- R44: the state at reset, and the state once construction has ended without fault, in a step that runs it to its end (log 1).
That State.reset is this point is the model's reading (log 7). -/
def Obligations.ResetStateAndAfter : Prop :=
  let r := State.reset
  (r.addrbits = addrBitsOf r.cfgAddr ∧ r.buf10 = 0#8 ∧ r.buf20 = 0#8 ∧ r.buf21 = 0#8 ∧ r.buf30 = 0#8 ∧ r.buf31 = 0#8 ∧
    r.buf32 = 0#8 ∧ r.cs = true ∧ r.drdyPullup = true ∧ r.busy = true ∧ r.seq = .pos .construct 1 .assert ∧
    r.rspValid = false ∧ r.faulted = false) ∧
  ∃ t v, step { r with eventSteps := false, xfers := List.replicate 5 .done } = .next t ∧ t.addrbits = r.addrbits ∧ t.buf10 = r.addrbits ||| 0x38#8 ∧
    t.buf20 = r.addrbits ||| 0x16#8 ∧ t.buf21 = v &&& 0xFE#8 ∧ t.buf30 = 0#8 ∧ t.buf31 = 0#8 ∧ t.buf32 = 0#8 ∧ t.cs = true ∧
    t.t8 = v ∧ t.busy = false ∧ t.seq = .idle ∧ t.rspValid = true ∧ t.rspStatus = 0#2 ∧ t.rspData = 0#32

/-- The chip alone powers up (R45, R170, R241): registers at drawn defaults, no result, the line not driven low, Unknown ended, its
address unchanged; PMODE as the transaction in progress leaves it, Deselected with chip-select high. That the power-up is a step
of its own, and that PTR and PH are drawn and PMODE kept, is the model's reading (log 20). -/
def Obligations.ChipPowerUpResult : Prop :=
  ∀ s : State, s.chipPowerUp = true →
    ∃ adc irq mux ptr ph n, step s = .next { s with
      chipPowerUp := false, draws := n
      peer := { s.peer with
        adcdata := adc, irq := irq, mux := mux, ptr := ptr, ph := ph, unknown := false, convst := .noResult, lineLow := false
        pmode := if s.cs then .deselected else s.peer.pmode } }

/-- A step runs the decoded instruction: a request word accepted by an idle block (R34), a command byte at a chip that awaits one
(R172), a released `rst` (R140), which overrides the operation in progress (R210); whole, or its acceptance alone where a step is
one event, after which every step is one event of the operation (R5), and the instruction whole is its acceptance and then its
events. What the step adds is the opportunity of the chip's own agents (R183) and the port cleared. The two grains of a step
(log 1), the ports' order and clearing (log 2) and the port `wireIn` (log 3) are the model's choices. -/
def Obligations.StepRunsTheInstruction : Prop :=
  (∀ (s : State) (w : BitVec 18), s.chipPowerUp = false → s.rst = false → s.seq = .idle → s.busy = false → s.wireIn = none →
    s.req = some w → s.stepTakesUp (decodeReq18 w) { s.convTick with req := none }) ∧
  (∀ (s : State) (c : Byte), s.chipPowerUp = false → s.rst = false → s.seq = .idle → s.peer.pmode = .awaitCmd →
    s.wireIn = some c → step s = exec (decodeCmd8 c) { s.convTick with wireIn := none }) ∧
  (∀ s : State, s.chipPowerUp = false → s.rst = true → s.stepTakesUp (.construct s.cfgAddr) { s.convTick with rst := false }) ∧
  (∀ (i : Instr) (s u : State), s.accepted i = some u → exec i s = .next (u.run runFuel)) ∧
  ∀ s : State, s.turn = .resume → s.seq.legal = true →
    step s = .next (if s.eventSteps then s.convTick.tick.2 else s.convTick.run runFuel)

/-- A word of the opcode table placed by `withFetchWord` is what the very next step runs, in every state: placed
so, a request runs whole (log 1, log 2). -/
def Obligations.PlacedWordRunsNext : Prop :=
  ∀ (s : State) (nbits w : Nat) (i : Instr), decodeTableWord nbits w = some i →
    step (s.withFetchWord nbits w) = exec i (s.withFetchWord nbits w).convTick.taken

/-- R210, R34: while an operation is in progress a request waits at the port, and `req_ready` is 0 exactly while BUSY. -/
def Obligations.RequestWaitsWhileBusy : Prop :=
  ∀ s : State, s.reqReady = !s.busy ∧
    (s.chipPowerUp = false → s.rst = false → s.busy = true → s.wireIn = none → ∀ t, step s = .next t → t.req = s.req)

/-! ## Rules of the whole machine -/

/-- The invariant holds at reset: at the point log 7 takes for it, with the RSP_STATUS of 0 that log 8 chose where R44 leaves it
unspecified. -/
def Obligations.InvariantAtReset : Prop := State.reset.Inv

/-- Every step from a state with the invariant answers a next state, and that state has it. That RSP_STATUS is not 3 while a
construction is in progress rests on the model's choice to keep it there (log 24). -/
def Obligations.StepKeepsInvariant : Prop := ∀ s : State, s.Inv → ∃ t, step s = .next t ∧ t.Inv

/-- R21, R35: no step but construction's changes the device address bits, and none changes the chip's own address. -/
def Obligations.AddressBitsOnlyByConstruction : Prop :=
  ∀ s t : State, step s = .next t →
    t.peer.sa = s.peer.sa ∧ (s.rst = false → s.seq ≠ .pos .construct 0 .init → t.addrbits = s.addrbits)

/-- R33, R202: FAULTED is set only by a step that ends in a transport fault, and never cleared. That not even a later construction
clears it is the model's reading (log 19). -/
def Obligations.FaultedStaysSet : Prop :=
  ∀ s t : State, step s = .next t →
    (s.faulted = true → t.faulted = true) ∧
    (s.faulted = false → t.faulted = true → t.rspStatus = statusTransportFault)

/-- R170: the chip leaves Unknown only by a full reset command byte of its own address on the wire, or by being powered up. -/
def Obligations.UnknownEndsOnlyByFullReset : Prop :=
  ∀ s t : State, step s = .next t → s.chipPowerUp = false → s.peer.unknown = true → t.peer.unknown = false →
    ∃ ev, t.trace = s.trace ++ ev ∧ holdsFullReset s.peer.sa ev

/-- The wire trace (00_scope.md section 6) is a record: a step only adds to it. That it is one record, which goes on through a later
construction, is the model's reading (log 19): R140 has the trace begin after construction's step 1. -/
def Obligations.TraceOnlyGrows : Prop :=
  ∀ s t : State, step s = .next t → ∃ ev, t.trace = s.trace ++ ev

/-- R183: where nothing stands at a port, a step changes the chip at most by the end of a conversion in progress: a result, the
line driven low, and no other register changed. That IRQ bits 7 to 1 stay between two reads is the model's choice (log 11). -/
def Obligations.ConversionEndsOnlyFromConverting : Prop :=
  ∀ s : State, s.turn = .quiet → s.peer.unknown = false →
    ∃ q n, step s = .next { s with peer := q, draws := n } ∧
      (q = s.peer ∨ s.peer.convst = .converting ∧ ∃ d, q = { s.peer with adcdata := d, convst := .resultReady, lineLow := true })
end

