-- ==== Sys2Proof/Laws/Chip.lean ====
section
/-! SUPPORT. What the chip's events can do (43_slave_decode.md), said once per event: its own address stays, when Unknown begins and
ends, where PMODE goes, and the two facts of 10_state.md R40, R41 about PH and the line. -/

namespace Sys2Proof.Machine

theorem Peer.settle_known {n : Nat} {p : Peer} (h : p.unknown = false) : p.settle n = p := by simp [Peer.settle, h]

@[simp] theorem Peer.settle_sa (n : Nat) (p : Peer) : (p.settle n).sa = p.sa := by unfold Peer.settle; split <;> rfl
@[simp] theorem Peer.settle_unknown (n : Nat) (p : Peer) : (p.settle n).unknown = p.unknown := by
  unfold Peer.settle; split <;> rfl
@[simp] theorem Peer.settle_pmode (n : Nat) (p : Peer) : (p.settle n).pmode = p.pmode := by unfold Peer.settle; split <;> rfl
@[simp] theorem Peer.settle_ptr (n : Nat) (p : Peer) : (p.settle n).ptr = p.ptr := by unfold Peer.settle; split <;> rfl
@[simp] theorem Peer.settle_ph (n : Nat) (p : Peer) : (p.settle n).ph = p.ph := by unfold Peer.settle; split <;> rfl

@[simp] theorem Peer.convert_sa (n : Nat) (p : Peer) : (p.convert n).sa = p.sa := by unfold Peer.convert; split <;> rfl
@[simp] theorem Peer.convert_unknown (n : Nat) (p : Peer) : (p.convert n).unknown = p.unknown := by
  unfold Peer.convert; split <;> rfl
@[simp] theorem Peer.convert_pmode (n : Nat) (p : Peer) : (p.convert n).pmode = p.pmode := by unfold Peer.convert; split <;> rfl
@[simp] theorem Peer.convert_ptr (n : Nat) (p : Peer) : (p.convert n).ptr = p.ptr := by unfold Peer.convert; split <;> rfl
@[simp] theorem Peer.convert_ph (n : Nat) (p : Peer) : (p.convert n).ph = p.ph := by unfold Peer.convert; split <;> rfl
@[simp] theorem Peer.convert_moved (n : Nat) (p : Peer) : (p.convert n).moved = p.moved := by unfold Peer.convert; split <;> rfl
@[simp] theorem Peer.convert_irq (n : Nat) (p : Peer) : (p.convert n).irq = p.irq := by unfold Peer.convert; split <;> rfl
@[simp] theorem Peer.convert_mux (n : Nat) (p : Peer) : (p.convert n).mux = p.mux := by unfold Peer.convert; split <;> rfl

/-- The conversion process acts only on a chip that is Converting (43_slave_decode.md R183). -/
theorem Peer.convert_idle {n : Nat} {p : Peer} (h : p.convst ≠ .converting) : p.convert n = p := by simp [Peer.convert, h]

/-- What an opportunity of the conversion process can do. -/
theorem Peer.convert_cases (n : Nat) (p : Peer) :
    p.convert n = p ∨
      p.convst = .converting ∧ ∃ d, p.convert n = { p with adcdata := d, convst := .resultReady, lineLow := true } := by
  unfold Peer.convert; split
  · rename_i h; exact .inr ⟨h.1, _, rfl⟩
  · exact .inl rfl

@[simp] theorem Peer.csFall_sa (p : Peer) : p.csFall.sa = p.sa := rfl
@[simp] theorem Peer.csFall_unknown (p : Peer) : p.csFall.unknown = p.unknown := rfl
@[simp] theorem Peer.csFall_pmode (p : Peer) : p.csFall.pmode = .awaitCmd := rfl

@[simp] theorem Peer.csRise_sa (n : Nat) (p : Peer) : (p.csRise n).sa = p.sa := by
  simp only [Peer.csRise]; split <;> simp [Peer.release]
@[simp] theorem Peer.csRise_unknown (n : Nat) (p : Peer) : (p.csRise n).unknown = p.unknown := by
  simp only [Peer.csRise]; split <;> simp [Peer.release]
@[simp] theorem Peer.csRise_pmode (n : Nat) (p : Peer) : (p.csRise n).pmode = .deselected := by
  simp only [Peer.csRise]
@[simp] theorem Peer.csRise_irq (n : Nat) (p : Peer) : (p.csRise n).irq = p.irq := by
  simp only [Peer.csRise]; split <;> simp [Peer.release]
@[simp] theorem Peer.csRise_mux (n : Nat) (p : Peer) : (p.csRise n).mux = p.mux := by
  simp only [Peer.csRise]; split <;> simp [Peer.release]

/-- The rise after a frame that cuts no read short is, for the ready state, the line and ADCDATA, an opportunity of the conversion
process and nothing else (43_slave_decode.md R183, R188). -/
theorem Peer.csRise_whole {n : Nat} {p : Peer} (h : p.readCutShort = false) :
    (p.csRise n).convst = (p.convert (n + 3)).convst ∧ (p.csRise n).lineLow = (p.convert (n + 3)).lineLow ∧
    (p.csRise n).adcdata = (p.convert (n + 3)).adcdata := by
  have hc : (p.convert (n + 3)).readCutShort = false := by simpa [Peer.readCutShort] using h
  simp [Peer.csRise, hc]

/-- What the rise of chip-select can do: an opportunity of the conversion process, the end of the frame, and, where it cuts a read
short with a result ready, perhaps the release of the ready state (43_slave_decode.md R170, R183, R188). -/
theorem Peer.csRise_cases (n : Nat) (p : Peer) :
    let c := p.convert (n + 3)
    ∃ ptr ph, p.csRise n = { c with pmode := .deselected, ptr := ptr, ph := ph, moved := false } ∨
      c.readCutShort = true ∧ c.convst = .resultReady ∧
        p.csRise n = { c.release with pmode := .deselected, ptr := ptr, ph := ph, moved := false } := by
  intro c
  refine ⟨Config.freeNibble n, BitVec.ofBool (Config.freeBit (n + 2)), ?_⟩
  simp only [Peer.csRise]
  split
  · rename_i h
    simp only [Bool.and_eq_true, beq_iff_eq] at h
    exact .inr ⟨h.1.1, h.1.2, rfl⟩
  · exact .inl rfl

@[simp] theorem Peer.powerUp_sa (n : Nat) (cs : Bool) (p : Peer) : (p.powerUp n cs).sa = p.sa := rfl
@[simp] theorem Peer.powerUp_unknown (n : Nat) (cs : Bool) (p : Peer) : (p.powerUp n cs).unknown = false := rfl
@[simp] theorem Peer.powerUp_pmode (n : Nat) (cs : Bool) (p : Peer) :
    (p.powerUp n cs).pmode = if cs then .deselected else p.pmode := rfl

@[simp] theorem Peer.writeData_sa (n : Nat) (d : Byte) (p : Peer) : (p.writeData n d).sa = p.sa := by
  unfold Peer.writeData; split
  · rfl
  · split <;> rfl
@[simp] theorem Peer.writeData_pmode (n : Nat) (d : Byte) (p : Peer) : (p.writeData n d).pmode = p.pmode := by
  unfold Peer.writeData; split
  · rfl
  · split <;> rfl
theorem Peer.writeData_unknown {n : Nat} {d : Byte} {p : Peer} (h : p.unknown = true) : (p.writeData n d).unknown = true := by
  unfold Peer.writeData; split
  · exact h
  · split
    · exact h
    · rfl

@[simp] theorem Peer.adcdataReadDone_sa (n : Nat) (p : Peer) : (p.adcdataReadDone n).sa = p.sa := by
  unfold Peer.adcdataReadDone; split <;> rfl
@[simp] theorem Peer.adcdataReadDone_pmode (n : Nat) (p : Peer) : (p.adcdataReadDone n).pmode = p.pmode := by
  unfold Peer.adcdataReadDone; split <;> rfl
@[simp] theorem Peer.adcdataReadDone_unknown (n : Nat) (p : Peer) : (p.adcdataReadDone n).unknown = p.unknown := by
  unfold Peer.adcdataReadDone; split <;> rfl
@[simp] theorem Peer.adcdataReadDone_ph (n : Nat) (p : Peer) : (p.adcdataReadDone n).ph = p.ph := by
  unfold Peer.adcdataReadDone; split <;> rfl

/-- What one exchange of a read can leave of the chip (43_slave_decode.md R182, R184, R186). -/
theorem Peer.readData_cases (n : Nat) (p : Peer) :
    let q := (p.readData n).2
    (p.ptr = 0#4 ∧ p.ph = 0#1 ∧ q = { p with ph := 1#1, moved := true }) ∨
    (p.ptr = 0#4 ∧ p.ph ≠ 0#1 ∧ (q = { p with ptr := 1#4, ph := 0#1, moved := true } ∨
      q = { p with ptr := 1#4, ph := 0#1, moved := true, convst := .noResult, lineLow := false })) ∨
    (p.ptr = 5#4 ∧ q = { p with irq := irqNow n p.irq, ptr := 6#4, ph := 0#1, moved := true }) ∨
    (p.ptr = 6#4 ∧ q = { p with ptr := 7#4, ph := 0#1, moved := true }) ∨
    (p.ptr ≠ 0#4 ∧ p.ptr ≠ 5#4 ∧ p.ptr ≠ 6#4 ∧ q = { p with unknown := true, moved := true }) := by
  intro q
  simp only [q, Peer.readData]
  split
  · rename_i h0
    split
    · rename_i h1; exact .inl ⟨h0, h1, rfl⟩
    · rename_i h1
      refine .inr (.inl ⟨h0, h1, ?_⟩)
      split
      · unfold Peer.adcdataReadDone; split
        · exact .inr rfl
        · exact .inl rfl
      · exact .inl rfl
  · rename_i h0
    split
    · rename_i h5; exact .inr (.inr (.inl ⟨h5, rfl⟩))
    · rename_i h5
      split
      · rename_i h6; exact .inr (.inr (.inr (.inl ⟨h6, rfl⟩)))
      · rename_i h6; exact .inr (.inr (.inr (.inr ⟨h0, h5, h6, rfl⟩)))

@[simp] theorem Peer.readData_sa (n : Nat) (p : Peer) : (p.readData n).2.sa = p.sa := by
  rcases Peer.readData_cases n p with ⟨-, -, h⟩ | ⟨-, -, h | h⟩ | ⟨-, h⟩ | ⟨-, h⟩ | ⟨-, -, -, h⟩ <;> rw [h]
@[simp] theorem Peer.readData_pmode (n : Nat) (p : Peer) : (p.readData n).2.pmode = p.pmode := by
  rcases Peer.readData_cases n p with ⟨-, -, h⟩ | ⟨-, -, h | h⟩ | ⟨-, h⟩ | ⟨-, h⟩ | ⟨-, -, -, h⟩ <;> rw [h]
theorem Peer.readData_unknown {n : Nat} {p : Peer} (hu : p.unknown = true) : (p.readData n).2.unknown = true := by
  rcases Peer.readData_cases n p with ⟨-, -, h⟩ | ⟨-, -, h | h⟩ | ⟨-, h⟩ | ⟨-, h⟩ | ⟨-, -, -, h⟩ <;> rw [h] <;> exact hu

/-- What the decoder reads from a command byte is one of the six wire commands (43_slave_decode.md R172). -/
theorem decodeCmd8_cases (c : Byte) :
    (∃ a, decodeCmd8 c = .fastStart a) ∨ (∃ a, decodeCmd8 c = .fastReset a) ∨ (∃ a op, decodeCmd8 c = .fastOther a op) ∨
    (∃ a ra, decodeCmd8 c = .xt01 a ra) ∨ (∃ a ra, decodeCmd8 c = .incw a ra) ∨ (∃ a ra, decodeCmd8 c = .incr a ra) := by
  simp only [decodeCmd8]
  split
  · split
    · exact .inl ⟨_, rfl⟩
    · split
      · exact .inr (.inl ⟨_, rfl⟩)
      · exact .inr (.inr (.inl ⟨_, _, rfl⟩))
  · split
    · exact .inr (.inr (.inr (.inl ⟨_, _, rfl⟩)))
    · split
      · exact .inr (.inr (.inr (.inr (.inl ⟨_, _, rfl⟩))))
      · exact .inr (.inr (.inr (.inr (.inr ⟨_, _, rfl⟩))))

/-- A command byte at the chip: the effect of one of the six wire commands under the address test (43_slave_decode.md R172,
R174). -/
theorem Peer.command_cases (n : Nat) (c : Byte) (p : Peer) :
    ∃ a eff, p.command n c = Peer.addressed n a eff p ∧
      (eff = p.fastStart n ∨ (eff = p.fastReset n ∧ decodeCmd8 c = .fastReset a) ∨ eff = p.fastOther ∨ eff = p.xt01 ∨
        (∃ ra, eff = p.beginWrite ra) ∨ ∃ ra, eff = p.beginRead ra) := by
  rcases decodeCmd8_cases c with ⟨a, h⟩ | ⟨a, h⟩ | ⟨a, op, h⟩ | ⟨a, ra, h⟩ | ⟨a, ra, h⟩ | ⟨a, ra, h⟩
  · exact ⟨a, _, by simp only [Peer.command, h], .inl rfl⟩
  · exact ⟨a, _, by simp only [Peer.command, h], .inr (.inl ⟨rfl, h⟩)⟩
  · exact ⟨a, _, by simp only [Peer.command, h], .inr (.inr (.inl rfl))⟩
  · exact ⟨a, _, by simp only [Peer.command, h], .inr (.inr (.inr (.inl rfl)))⟩
  · exact ⟨a, _, by simp only [Peer.command, h]; rfl, .inr (.inr (.inr (.inr (.inl ⟨_, rfl⟩))))⟩
  · exact ⟨a, _, by simp only [Peer.command, h]; rfl, .inr (.inr (.inr (.inr (.inr ⟨_, rfl⟩))))⟩

theorem Peer.addressed_mine {n : Nat} {a : DevAddr} {eff p : Peer} (h : a = p.sa) : Peer.addressed n a eff p = eff.settle n := by
  simp [Peer.addressed, h]
theorem Peer.addressed_other {n : Nat} {a : DevAddr} {eff p : Peer} (h : a ≠ p.sa) :
    Peer.addressed n a eff p = p.ignoreFrame.settle n := by simp [Peer.addressed, h]

/-- The command byte leaves the chip's own address alone, ends the wait for a command, and ends Unknown only where it is a full
reset of this chip (43_slave_decode.md R170, R172, R178). -/
theorem Peer.command_spec (n : Nat) (c : Byte) (p : Peer) :
    (p.command n c).sa = p.sa ∧ (p.command n c).pmode ≠ .deselected ∧ (p.command n c).pmode ≠ .awaitCmd ∧
    (p.unknown = true → (p.command n c).unknown = false → decodeCmd8 c = .fastReset p.sa) := by
  obtain ⟨a, eff, h, he⟩ := Peer.command_cases n c p
  rw [h]
  by_cases ha : a = p.sa
  · rw [Peer.addressed_mine ha]
    rcases he with rfl | ⟨rfl, hr⟩ | rfl | rfl | ⟨ra, rfl⟩ | ⟨ra, rfl⟩ <;>
      simp_all [Peer.fastStart, Peer.fastReset, Peer.fastOther, Peer.xt01, Peer.beginWrite, Peer.beginRead, Peer.enterUnknown]
  · rw [Peer.addressed_other ha]; simp +contextual [Peer.ignoreFrame]

/-- A byte at the chip leaves its own address alone, keeps it selected if it is, and ends Unknown only as a full reset command
byte of this chip (43_slave_decode.md R170, R171). -/
theorem Peer.byte_spec (n : Nat) (o : Byte) (p : Peer) :
    (p.byte n o).2.sa = p.sa ∧ ((p.byte n o).2.pmode = .deselected ↔ p.pmode = .deselected) ∧
    (p.unknown = true → (p.byte n o).2.unknown = false → decodeCmd8 o = .fastReset p.sa) := by
  have hc := Peer.command_spec n o p
  unfold Peer.byte
  split
  · rename_i h; simp +contextual [h]
  · rename_i h; simp only [h]; exact ⟨hc.1, ⟨fun e => absurd e hc.2.1, fun e => by cases e⟩, hc.2.2.2⟩
  · rename_i h; simp +contextual [h]
  · rename_i h; simp [h, Peer.enterUnknown]
  · rename_i h; simp +contextual [h, Peer.writeData_unknown]
  · rename_i h; simp +contextual [h, Peer.readData_unknown]

/-! The line follows CONVST (10_state.md R41). -/

theorem Peer.lineFollows_settle {n : Nat} {p : Peer} (h : p.lineFollows) : (p.settle n).lineFollows := by
  unfold Peer.settle; split
  · rename_i hu; intro hf; exact absurd hf (by simp [Peer.forget, hu])
  · exact h
theorem Peer.lineFollows_convert {n : Nat} {p : Peer} (h : p.lineFollows) : (p.convert n).lineFollows := by
  rcases Peer.convert_cases n p with e | ⟨-, d, e⟩ <;> rw [e]
  · exact h
  · intro _; simp
theorem Peer.lineFollows_csFall {p : Peer} (h : p.lineFollows) : p.csFall.lineFollows := h
theorem Peer.lineFollows_csRise {n : Nat} {p : Peer} (h : p.lineFollows) : (p.csRise n).lineFollows := by
  simp only [Peer.csRise]; split
  · intro _; simp [Peer.release]
  · exact Peer.lineFollows_convert (n := n + 3) h
theorem Peer.lineFollows_writeData {n : Nat} {d : Byte} {p : Peer} (h : p.lineFollows) : (p.writeData n d).lineFollows := by
  unfold Peer.writeData; split
  · exact h
  · split
    · exact h
    · intro hf; simp [Peer.enterUnknown] at hf
theorem Peer.lineFollows_readData {n : Nat} {p : Peer} (h : p.lineFollows) : (p.readData n).2.lineFollows := by
  rcases Peer.readData_cases n p with ⟨-, -, e⟩ | ⟨-, -, e | e⟩ | ⟨-, e⟩ | ⟨-, e⟩ | ⟨-, -, -, e⟩ <;> rw [e]
  · exact h
  · exact h
  · intro _; simp
  · exact h
  · exact h
  · intro hf; simp at hf
theorem Peer.lineFollows_command {n : Nat} {c : Byte} {p : Peer} (h : p.lineFollows) : (p.command n c).lineFollows := by
  obtain ⟨a, eff, e, he⟩ := Peer.command_cases n c p
  rw [e]; unfold Peer.addressed
  refine Peer.lineFollows_settle ?_
  split
  · rcases he with rfl | ⟨rfl, -⟩ | rfl | rfl | ⟨ra, rfl⟩ | ⟨ra, rfl⟩
    · intro _; simp [Peer.fastStart]
    · intro _; simp [Peer.fastReset]
    · intro hf; simp [Peer.fastOther, Peer.enterUnknown] at hf
    · intro hf; simp [Peer.xt01, Peer.enterUnknown] at hf
    · exact h
    · exact h
  · exact h
theorem Peer.lineFollows_byte {n : Nat} {o : Byte} {p : Peer} (h : p.lineFollows) : (p.byte n o).2.lineFollows := by
  unfold Peer.byte; split
  · exact Peer.lineFollows_settle h
  · exact Peer.lineFollows_command h
  · exact Peer.lineFollows_settle h
  · exact Peer.lineFollows_settle (by intro hf; simp [Peer.enterUnknown] at hf)
  · exact Peer.lineFollows_settle (Peer.lineFollows_writeData h)
  · exact Peer.lineFollows_settle (Peer.lineFollows_readData h)

theorem Peer.lineFollows_powerUp (n : Nat) (cs : Bool) (p : Peer) : (p.powerUp n cs).lineFollows := by
  intro _; simp [Peer.powerUp]

/-! PH is 1 only inside the 16-bit register of a read (10_state.md R40). -/

theorem Peer.phLegal_of_eq {p q : Peer} (h : p.phLegal) (hm : q.pmode = p.pmode) (hr : q.ptr = p.ptr) (hh : q.ph = p.ph) :
    q.phLegal := by simpa [Peer.phLegal, hm, hr, hh] using h
theorem Peer.phLegal_of_mode {p : Peer} (h1 : p.pmode ≠ .reading) (h2 : p.pmode ≠ .writing) : p.phLegal :=
  ⟨fun h => absurd h h1, fun h => absurd h h2⟩
theorem Peer.phLegal_of_zero {p : Peer} (h : p.ph = 0#1) : p.phLegal :=
  ⟨fun _ h1 => by rw [h] at h1; exact absurd h1 (by decide), fun _ => h⟩
theorem Peer.phLegal_settle {n : Nat} {p : Peer} (h : p.phLegal) : (p.settle n).phLegal :=
  Peer.phLegal_of_eq h (by simp) (by simp) (by simp)
theorem Peer.phLegal_convert {n : Nat} {p : Peer} (h : p.phLegal) : (p.convert n).phLegal :=
  Peer.phLegal_of_eq h (by simp) (by simp) (by simp)
theorem Peer.phLegal_csFall (p : Peer) : p.csFall.phLegal := Peer.phLegal_of_mode (by simp) (by simp)
theorem Peer.phLegal_csRise (n : Nat) (p : Peer) : (p.csRise n).phLegal := Peer.phLegal_of_mode (by simp) (by simp)
theorem Peer.phLegal_powerUp (n : Nat) (cs : Bool) (p : Peer) : (p.powerUp n cs).phLegal := by
  by_cases h : Config.freeNibble n = 0#4 ∧ p.pmode ≠ .writing
  · refine ⟨fun _ _ => h.1, fun hw => ?_⟩
    cases cs
    · exact absurd hw h.2
    · cases hw
  · exact Peer.phLegal_of_zero (by simp only [Peer.powerUp, freePh, if_neg h])
theorem Peer.phLegal_writeData {n : Nat} {d : Byte} {p : Peer} (h : p.phLegal) : (p.writeData n d).phLegal := by
  unfold Peer.writeData; split
  · exact Peer.phLegal_of_zero rfl
  · split
    · exact Peer.phLegal_of_zero rfl
    · exact h
theorem Peer.phLegal_readData {n : Nat} {p : Peer} (hm : p.pmode = .reading) (h : p.phLegal) : (p.readData n).2.phLegal := by
  rcases Peer.readData_cases n p with ⟨h0, -, e⟩ | ⟨-, -, e | e⟩ | ⟨-, e⟩ | ⟨-, e⟩ | ⟨-, -, -, e⟩ <;> rw [e]
  · exact ⟨fun _ _ => h0, fun hw => by simp [hm] at hw⟩
  · exact Peer.phLegal_of_zero rfl
  · exact Peer.phLegal_of_zero rfl
  · exact Peer.phLegal_of_zero rfl
  · exact Peer.phLegal_of_zero rfl
  · exact h
theorem Peer.phLegal_command {n : Nat} {c : Byte} {p : Peer} : (p.command n c).phLegal := by
  obtain ⟨a, eff, e, he⟩ := Peer.command_cases n c p
  rw [e]; unfold Peer.addressed
  refine Peer.phLegal_settle ?_
  split
  · rcases he with rfl | ⟨rfl, -⟩ | rfl | rfl | ⟨ra, rfl⟩ | ⟨ra, rfl⟩
    · exact Peer.phLegal_of_mode (by simp [Peer.fastStart]) (by simp [Peer.fastStart])
    · exact Peer.phLegal_of_mode (by simp [Peer.fastReset]) (by simp [Peer.fastReset])
    · exact Peer.phLegal_of_mode (by simp [Peer.fastOther]) (by simp [Peer.fastOther])
    · exact Peer.phLegal_of_mode (by simp [Peer.xt01]) (by simp [Peer.xt01])
    · exact Peer.phLegal_of_zero rfl
    · exact Peer.phLegal_of_zero rfl
  · exact Peer.phLegal_of_mode (by simp [Peer.ignoreFrame]) (by simp [Peer.ignoreFrame])
theorem Peer.phLegal_byte {n : Nat} {o : Byte} {p : Peer} (h : p.phLegal) : (p.byte n o).2.phLegal := by
  unfold Peer.byte; split
  · exact Peer.phLegal_settle h
  · exact Peer.phLegal_command
  · exact Peer.phLegal_settle h
  · rename_i hm; exact Peer.phLegal_settle (Peer.phLegal_of_mode (by simp [Peer.enterUnknown, hm]) (by simp [Peer.enterUnknown, hm]))
  · exact Peer.phLegal_settle (Peer.phLegal_writeData h)
  · rename_i hm; exact Peer.phLegal_settle (Peer.phLegal_readData hm h)

end Sys2Proof.Machine
end

