-- ==== Sys2Proof/Laws/State.lean ====
section
/-! SUPPORT. One lemma per field per update of the state, so that no later proof unfolds a record update. -/

namespace Sys2Proof.Machine

/-! `State.emit` -/

@[simp] theorem State.emit_addrbits (e : WireEvent) (s : State) : (s.emit e).addrbits = s.addrbits := rfl
@[simp] theorem State.emit_buf10 (e : WireEvent) (s : State) : (s.emit e).buf10 = s.buf10 := rfl
@[simp] theorem State.emit_buf20 (e : WireEvent) (s : State) : (s.emit e).buf20 = s.buf20 := rfl
@[simp] theorem State.emit_buf21 (e : WireEvent) (s : State) : (s.emit e).buf21 = s.buf21 := rfl
@[simp] theorem State.emit_buf30 (e : WireEvent) (s : State) : (s.emit e).buf30 = s.buf30 := rfl
@[simp] theorem State.emit_buf31 (e : WireEvent) (s : State) : (s.emit e).buf31 = s.buf31 := rfl
@[simp] theorem State.emit_buf32 (e : WireEvent) (s : State) : (s.emit e).buf32 = s.buf32 := rfl
@[simp] theorem State.emit_t8 (e : WireEvent) (s : State) : (s.emit e).t8 = s.t8 := rfl
@[simp] theorem State.emit_t16 (e : WireEvent) (s : State) : (s.emit e).t16 = s.t16 := rfl
@[simp] theorem State.emit_cs (e : WireEvent) (s : State) : (s.emit e).cs = s.cs := rfl
@[simp] theorem State.emit_drdyPullup (e : WireEvent) (s : State) : (s.emit e).drdyPullup = s.drdyPullup := rfl
@[simp] theorem State.emit_busy (e : WireEvent) (s : State) : (s.emit e).busy = s.busy := rfl
@[simp] theorem State.emit_seq (e : WireEvent) (s : State) : (s.emit e).seq = s.seq := rfl
@[simp] theorem State.emit_rspValid (e : WireEvent) (s : State) : (s.emit e).rspValid = s.rspValid := rfl
@[simp] theorem State.emit_rspStatus (e : WireEvent) (s : State) : (s.emit e).rspStatus = s.rspStatus := rfl
@[simp] theorem State.emit_rspData (e : WireEvent) (s : State) : (s.emit e).rspData = s.rspData := rfl
@[simp] theorem State.emit_rspFaultInfo (e : WireEvent) (s : State) : (s.emit e).rspFaultInfo = s.rspFaultInfo := rfl
@[simp] theorem State.emit_faulted (e : WireEvent) (s : State) : (s.emit e).faulted = s.faulted := rfl
@[simp] theorem State.emit_argA (e : WireEvent) (s : State) : (s.emit e).argA = s.argA := rfl
@[simp] theorem State.emit_argD (e : WireEvent) (s : State) : (s.emit e).argD = s.argD := rfl
@[simp] theorem State.emit_sampled (e : WireEvent) (s : State) : (s.emit e).sampled = s.sampled := rfl
@[simp] theorem State.emit_sextOut (e : WireEvent) (s : State) : (s.emit e).sextOut = s.sextOut := rfl
@[simp] theorem State.emit_eventSteps (e : WireEvent) (s : State) : (s.emit e).eventSteps = s.eventSteps := rfl
@[simp] theorem State.emit_rst (e : WireEvent) (s : State) : (s.emit e).rst = s.rst := rfl
@[simp] theorem State.emit_cfgAddr (e : WireEvent) (s : State) : (s.emit e).cfgAddr = s.cfgAddr := rfl
@[simp] theorem State.emit_req (e : WireEvent) (s : State) : (s.emit e).req = s.req := rfl
@[simp] theorem State.emit_wireIn (e : WireEvent) (s : State) : (s.emit e).wireIn = s.wireIn := rfl
@[simp] theorem State.emit_chipPowerUp (e : WireEvent) (s : State) : (s.emit e).chipPowerUp = s.chipPowerUp := rfl
@[simp] theorem State.emit_xfers (e : WireEvent) (s : State) : (s.emit e).xfers = s.xfers := rfl
@[simp] theorem State.emit_peer (e : WireEvent) (s : State) : (s.emit e).peer = s.peer := rfl
@[simp] theorem State.emit_trace (e : WireEvent) (s : State) : (s.emit e).trace = s.trace ++ [e] := rfl
@[simp] theorem State.emit_draws (e : WireEvent) (s : State) : (s.emit e).draws = s.draws := rfl

/-! `State.drawn` -/

@[simp] theorem State.drawn_addrbits (s : State) : (s.drawn).addrbits = s.addrbits := rfl
@[simp] theorem State.drawn_buf10 (s : State) : (s.drawn).buf10 = s.buf10 := rfl
@[simp] theorem State.drawn_buf20 (s : State) : (s.drawn).buf20 = s.buf20 := rfl
@[simp] theorem State.drawn_buf21 (s : State) : (s.drawn).buf21 = s.buf21 := rfl
@[simp] theorem State.drawn_buf30 (s : State) : (s.drawn).buf30 = s.buf30 := rfl
@[simp] theorem State.drawn_buf31 (s : State) : (s.drawn).buf31 = s.buf31 := rfl
@[simp] theorem State.drawn_buf32 (s : State) : (s.drawn).buf32 = s.buf32 := rfl
@[simp] theorem State.drawn_t8 (s : State) : (s.drawn).t8 = s.t8 := rfl
@[simp] theorem State.drawn_t16 (s : State) : (s.drawn).t16 = s.t16 := rfl
@[simp] theorem State.drawn_cs (s : State) : (s.drawn).cs = s.cs := rfl
@[simp] theorem State.drawn_drdyPullup (s : State) : (s.drawn).drdyPullup = s.drdyPullup := rfl
@[simp] theorem State.drawn_busy (s : State) : (s.drawn).busy = s.busy := rfl
@[simp] theorem State.drawn_seq (s : State) : (s.drawn).seq = s.seq := rfl
@[simp] theorem State.drawn_rspValid (s : State) : (s.drawn).rspValid = s.rspValid := rfl
@[simp] theorem State.drawn_rspStatus (s : State) : (s.drawn).rspStatus = s.rspStatus := rfl
@[simp] theorem State.drawn_rspData (s : State) : (s.drawn).rspData = s.rspData := rfl
@[simp] theorem State.drawn_rspFaultInfo (s : State) : (s.drawn).rspFaultInfo = s.rspFaultInfo := rfl
@[simp] theorem State.drawn_faulted (s : State) : (s.drawn).faulted = s.faulted := rfl
@[simp] theorem State.drawn_argA (s : State) : (s.drawn).argA = s.argA := rfl
@[simp] theorem State.drawn_argD (s : State) : (s.drawn).argD = s.argD := rfl
@[simp] theorem State.drawn_sampled (s : State) : (s.drawn).sampled = s.sampled := rfl
@[simp] theorem State.drawn_sextOut (s : State) : (s.drawn).sextOut = s.sextOut := rfl
@[simp] theorem State.drawn_eventSteps (s : State) : (s.drawn).eventSteps = s.eventSteps := rfl
@[simp] theorem State.drawn_rst (s : State) : (s.drawn).rst = s.rst := rfl
@[simp] theorem State.drawn_cfgAddr (s : State) : (s.drawn).cfgAddr = s.cfgAddr := rfl
@[simp] theorem State.drawn_req (s : State) : (s.drawn).req = s.req := rfl
@[simp] theorem State.drawn_wireIn (s : State) : (s.drawn).wireIn = s.wireIn := rfl
@[simp] theorem State.drawn_chipPowerUp (s : State) : (s.drawn).chipPowerUp = s.chipPowerUp := rfl
@[simp] theorem State.drawn_xfers (s : State) : (s.drawn).xfers = s.xfers := rfl
@[simp] theorem State.drawn_peer (s : State) : (s.drawn).peer = s.peer := rfl
@[simp] theorem State.drawn_trace (s : State) : (s.drawn).trace = s.trace := rfl
@[simp] theorem State.drawn_draws (s : State) : (s.drawn).draws = s.draws + Config.drawStride := rfl

/-! `State.goto` -/

@[simp] theorem State.goto_addrbits (q : SeqPos) (s : State) : (s.goto q).addrbits = s.addrbits := rfl
@[simp] theorem State.goto_buf10 (q : SeqPos) (s : State) : (s.goto q).buf10 = s.buf10 := rfl
@[simp] theorem State.goto_buf20 (q : SeqPos) (s : State) : (s.goto q).buf20 = s.buf20 := rfl
@[simp] theorem State.goto_buf21 (q : SeqPos) (s : State) : (s.goto q).buf21 = s.buf21 := rfl
@[simp] theorem State.goto_buf30 (q : SeqPos) (s : State) : (s.goto q).buf30 = s.buf30 := rfl
@[simp] theorem State.goto_buf31 (q : SeqPos) (s : State) : (s.goto q).buf31 = s.buf31 := rfl
@[simp] theorem State.goto_buf32 (q : SeqPos) (s : State) : (s.goto q).buf32 = s.buf32 := rfl
@[simp] theorem State.goto_t8 (q : SeqPos) (s : State) : (s.goto q).t8 = s.t8 := rfl
@[simp] theorem State.goto_t16 (q : SeqPos) (s : State) : (s.goto q).t16 = s.t16 := rfl
@[simp] theorem State.goto_cs (q : SeqPos) (s : State) : (s.goto q).cs = s.cs := rfl
@[simp] theorem State.goto_drdyPullup (q : SeqPos) (s : State) : (s.goto q).drdyPullup = s.drdyPullup := rfl
@[simp] theorem State.goto_busy (q : SeqPos) (s : State) : (s.goto q).busy = s.busy := rfl
@[simp] theorem State.goto_seq (q : SeqPos) (s : State) : (s.goto q).seq = q := rfl
@[simp] theorem State.goto_rspValid (q : SeqPos) (s : State) : (s.goto q).rspValid = s.rspValid := rfl
@[simp] theorem State.goto_rspStatus (q : SeqPos) (s : State) : (s.goto q).rspStatus = s.rspStatus := rfl
@[simp] theorem State.goto_rspData (q : SeqPos) (s : State) : (s.goto q).rspData = s.rspData := rfl
@[simp] theorem State.goto_rspFaultInfo (q : SeqPos) (s : State) : (s.goto q).rspFaultInfo = s.rspFaultInfo := rfl
@[simp] theorem State.goto_faulted (q : SeqPos) (s : State) : (s.goto q).faulted = s.faulted := rfl
@[simp] theorem State.goto_argA (q : SeqPos) (s : State) : (s.goto q).argA = s.argA := rfl
@[simp] theorem State.goto_argD (q : SeqPos) (s : State) : (s.goto q).argD = s.argD := rfl
@[simp] theorem State.goto_sampled (q : SeqPos) (s : State) : (s.goto q).sampled = s.sampled := rfl
@[simp] theorem State.goto_sextOut (q : SeqPos) (s : State) : (s.goto q).sextOut = s.sextOut := rfl
@[simp] theorem State.goto_eventSteps (q : SeqPos) (s : State) : (s.goto q).eventSteps = s.eventSteps := rfl
@[simp] theorem State.goto_rst (q : SeqPos) (s : State) : (s.goto q).rst = s.rst := rfl
@[simp] theorem State.goto_cfgAddr (q : SeqPos) (s : State) : (s.goto q).cfgAddr = s.cfgAddr := rfl
@[simp] theorem State.goto_req (q : SeqPos) (s : State) : (s.goto q).req = s.req := rfl
@[simp] theorem State.goto_wireIn (q : SeqPos) (s : State) : (s.goto q).wireIn = s.wireIn := rfl
@[simp] theorem State.goto_chipPowerUp (q : SeqPos) (s : State) : (s.goto q).chipPowerUp = s.chipPowerUp := rfl
@[simp] theorem State.goto_xfers (q : SeqPos) (s : State) : (s.goto q).xfers = s.xfers := rfl
@[simp] theorem State.goto_peer (q : SeqPos) (s : State) : (s.goto q).peer = s.peer := rfl
@[simp] theorem State.goto_trace (q : SeqPos) (s : State) : (s.goto q).trace = s.trace := rfl
@[simp] theorem State.goto_draws (q : SeqPos) (s : State) : (s.goto q).draws = s.draws := rfl

/-! `State.answered` -/

@[simp] theorem State.answered_addrbits (s : State) : (s.answered).addrbits = s.addrbits := rfl
@[simp] theorem State.answered_buf10 (s : State) : (s.answered).buf10 = s.buf10 := rfl
@[simp] theorem State.answered_buf20 (s : State) : (s.answered).buf20 = s.buf20 := rfl
@[simp] theorem State.answered_buf21 (s : State) : (s.answered).buf21 = s.buf21 := rfl
@[simp] theorem State.answered_buf30 (s : State) : (s.answered).buf30 = s.buf30 := rfl
@[simp] theorem State.answered_buf31 (s : State) : (s.answered).buf31 = s.buf31 := rfl
@[simp] theorem State.answered_buf32 (s : State) : (s.answered).buf32 = s.buf32 := rfl
@[simp] theorem State.answered_t8 (s : State) : (s.answered).t8 = s.t8 := rfl
@[simp] theorem State.answered_t16 (s : State) : (s.answered).t16 = s.t16 := rfl
@[simp] theorem State.answered_cs (s : State) : (s.answered).cs = s.cs := rfl
@[simp] theorem State.answered_drdyPullup (s : State) : (s.answered).drdyPullup = s.drdyPullup := rfl
@[simp] theorem State.answered_busy (s : State) : (s.answered).busy = s.busy := rfl
@[simp] theorem State.answered_seq (s : State) : (s.answered).seq = s.seq := rfl
@[simp] theorem State.answered_rspValid (s : State) : (s.answered).rspValid = s.rspValid := rfl
@[simp] theorem State.answered_rspStatus (s : State) : (s.answered).rspStatus = s.rspStatus := rfl
@[simp] theorem State.answered_rspData (s : State) : (s.answered).rspData = s.rspData := rfl
@[simp] theorem State.answered_rspFaultInfo (s : State) : (s.answered).rspFaultInfo = s.rspFaultInfo := rfl
@[simp] theorem State.answered_faulted (s : State) : (s.answered).faulted = s.faulted := rfl
@[simp] theorem State.answered_argA (s : State) : (s.answered).argA = s.argA := rfl
@[simp] theorem State.answered_argD (s : State) : (s.answered).argD = s.argD := rfl
@[simp] theorem State.answered_sampled (s : State) : (s.answered).sampled = s.sampled := rfl
@[simp] theorem State.answered_sextOut (s : State) : (s.answered).sextOut = s.sextOut := rfl
@[simp] theorem State.answered_eventSteps (s : State) : (s.answered).eventSteps = s.eventSteps := rfl
@[simp] theorem State.answered_rst (s : State) : (s.answered).rst = s.rst := rfl
@[simp] theorem State.answered_cfgAddr (s : State) : (s.answered).cfgAddr = s.cfgAddr := rfl
@[simp] theorem State.answered_req (s : State) : (s.answered).req = s.req := rfl
@[simp] theorem State.answered_wireIn (s : State) : (s.answered).wireIn = s.wireIn := rfl
@[simp] theorem State.answered_chipPowerUp (s : State) : (s.answered).chipPowerUp = s.chipPowerUp := rfl
@[simp] theorem State.answered_xfers (s : State) : (s.answered).xfers = s.xfers.tail := rfl
@[simp] theorem State.answered_peer (s : State) : (s.answered).peer = s.peer := rfl
@[simp] theorem State.answered_trace (s : State) : (s.answered).trace = s.trace := rfl
@[simp] theorem State.answered_draws (s : State) : (s.answered).draws = s.draws + Config.drawStride := rfl

/-! `State.convTick` -/

@[simp] theorem State.convTick_addrbits (s : State) : (s.convTick).addrbits = s.addrbits := rfl
@[simp] theorem State.convTick_buf10 (s : State) : (s.convTick).buf10 = s.buf10 := rfl
@[simp] theorem State.convTick_buf20 (s : State) : (s.convTick).buf20 = s.buf20 := rfl
@[simp] theorem State.convTick_buf21 (s : State) : (s.convTick).buf21 = s.buf21 := rfl
@[simp] theorem State.convTick_buf30 (s : State) : (s.convTick).buf30 = s.buf30 := rfl
@[simp] theorem State.convTick_buf31 (s : State) : (s.convTick).buf31 = s.buf31 := rfl
@[simp] theorem State.convTick_buf32 (s : State) : (s.convTick).buf32 = s.buf32 := rfl
@[simp] theorem State.convTick_t8 (s : State) : (s.convTick).t8 = s.t8 := rfl
@[simp] theorem State.convTick_t16 (s : State) : (s.convTick).t16 = s.t16 := rfl
@[simp] theorem State.convTick_cs (s : State) : (s.convTick).cs = s.cs := rfl
@[simp] theorem State.convTick_drdyPullup (s : State) : (s.convTick).drdyPullup = s.drdyPullup := rfl
@[simp] theorem State.convTick_busy (s : State) : (s.convTick).busy = s.busy := rfl
@[simp] theorem State.convTick_seq (s : State) : (s.convTick).seq = s.seq := rfl
@[simp] theorem State.convTick_rspValid (s : State) : (s.convTick).rspValid = s.rspValid := rfl
@[simp] theorem State.convTick_rspStatus (s : State) : (s.convTick).rspStatus = s.rspStatus := rfl
@[simp] theorem State.convTick_rspData (s : State) : (s.convTick).rspData = s.rspData := rfl
@[simp] theorem State.convTick_rspFaultInfo (s : State) : (s.convTick).rspFaultInfo = s.rspFaultInfo := rfl
@[simp] theorem State.convTick_faulted (s : State) : (s.convTick).faulted = s.faulted := rfl
@[simp] theorem State.convTick_argA (s : State) : (s.convTick).argA = s.argA := rfl
@[simp] theorem State.convTick_argD (s : State) : (s.convTick).argD = s.argD := rfl
@[simp] theorem State.convTick_sampled (s : State) : (s.convTick).sampled = s.sampled := rfl
@[simp] theorem State.convTick_sextOut (s : State) : (s.convTick).sextOut = s.sextOut := rfl
@[simp] theorem State.convTick_eventSteps (s : State) : (s.convTick).eventSteps = s.eventSteps := rfl
@[simp] theorem State.convTick_rst (s : State) : (s.convTick).rst = s.rst := rfl
@[simp] theorem State.convTick_cfgAddr (s : State) : (s.convTick).cfgAddr = s.cfgAddr := rfl
@[simp] theorem State.convTick_req (s : State) : (s.convTick).req = s.req := rfl
@[simp] theorem State.convTick_wireIn (s : State) : (s.convTick).wireIn = s.wireIn := rfl
@[simp] theorem State.convTick_chipPowerUp (s : State) : (s.convTick).chipPowerUp = s.chipPowerUp := rfl
@[simp] theorem State.convTick_xfers (s : State) : (s.convTick).xfers = s.xfers := rfl
@[simp] theorem State.convTick_peer (s : State) : (s.convTick).peer = (s.peer.convert s.draws).settle s.draws := rfl
@[simp] theorem State.convTick_trace (s : State) : (s.convTick).trace = s.trace := rfl
@[simp] theorem State.convTick_draws (s : State) : (s.convTick).draws = s.draws + Config.drawStride := rfl

/-! `State.crossWith` -/

@[simp] theorem State.crossWith_addrbits (o r : Byte) (s : State) : (s.crossWith o r).addrbits = s.addrbits := rfl
@[simp] theorem State.crossWith_buf10 (o r : Byte) (s : State) : (s.crossWith o r).buf10 = s.buf10 := rfl
@[simp] theorem State.crossWith_buf20 (o r : Byte) (s : State) : (s.crossWith o r).buf20 = s.buf20 := rfl
@[simp] theorem State.crossWith_buf21 (o r : Byte) (s : State) : (s.crossWith o r).buf21 = s.buf21 := rfl
@[simp] theorem State.crossWith_buf30 (o r : Byte) (s : State) : (s.crossWith o r).buf30 = s.buf30 := rfl
@[simp] theorem State.crossWith_buf31 (o r : Byte) (s : State) : (s.crossWith o r).buf31 = s.buf31 := rfl
@[simp] theorem State.crossWith_buf32 (o r : Byte) (s : State) : (s.crossWith o r).buf32 = s.buf32 := rfl
@[simp] theorem State.crossWith_t8 (o r : Byte) (s : State) : (s.crossWith o r).t8 = s.t8 := rfl
@[simp] theorem State.crossWith_t16 (o r : Byte) (s : State) : (s.crossWith o r).t16 = s.t16 := rfl
@[simp] theorem State.crossWith_cs (o r : Byte) (s : State) : (s.crossWith o r).cs = s.cs := rfl
@[simp] theorem State.crossWith_drdyPullup (o r : Byte) (s : State) : (s.crossWith o r).drdyPullup = s.drdyPullup := rfl
@[simp] theorem State.crossWith_busy (o r : Byte) (s : State) : (s.crossWith o r).busy = s.busy := rfl
@[simp] theorem State.crossWith_seq (o r : Byte) (s : State) : (s.crossWith o r).seq = s.seq := rfl
@[simp] theorem State.crossWith_rspValid (o r : Byte) (s : State) : (s.crossWith o r).rspValid = s.rspValid := rfl
@[simp] theorem State.crossWith_rspStatus (o r : Byte) (s : State) : (s.crossWith o r).rspStatus = s.rspStatus := rfl
@[simp] theorem State.crossWith_rspData (o r : Byte) (s : State) : (s.crossWith o r).rspData = s.rspData := rfl
@[simp] theorem State.crossWith_rspFaultInfo (o r : Byte) (s : State) : (s.crossWith o r).rspFaultInfo = s.rspFaultInfo := rfl
@[simp] theorem State.crossWith_faulted (o r : Byte) (s : State) : (s.crossWith o r).faulted = s.faulted := rfl
@[simp] theorem State.crossWith_argA (o r : Byte) (s : State) : (s.crossWith o r).argA = s.argA := rfl
@[simp] theorem State.crossWith_argD (o r : Byte) (s : State) : (s.crossWith o r).argD = s.argD := rfl
@[simp] theorem State.crossWith_sampled (o r : Byte) (s : State) : (s.crossWith o r).sampled = s.sampled := rfl
@[simp] theorem State.crossWith_sextOut (o r : Byte) (s : State) : (s.crossWith o r).sextOut = s.sextOut := rfl
@[simp] theorem State.crossWith_eventSteps (o r : Byte) (s : State) : (s.crossWith o r).eventSteps = s.eventSteps := rfl
@[simp] theorem State.crossWith_rst (o r : Byte) (s : State) : (s.crossWith o r).rst = s.rst := rfl
@[simp] theorem State.crossWith_cfgAddr (o r : Byte) (s : State) : (s.crossWith o r).cfgAddr = s.cfgAddr := rfl
@[simp] theorem State.crossWith_req (o r : Byte) (s : State) : (s.crossWith o r).req = s.req := rfl
@[simp] theorem State.crossWith_wireIn (o r : Byte) (s : State) : (s.crossWith o r).wireIn = s.wireIn := rfl
@[simp] theorem State.crossWith_chipPowerUp (o r : Byte) (s : State) : (s.crossWith o r).chipPowerUp = s.chipPowerUp := rfl
@[simp] theorem State.crossWith_xfers (o r : Byte) (s : State) : (s.crossWith o r).xfers = s.xfers := rfl
@[simp] theorem State.crossWith_peer (o r : Byte) (s : State) : (s.crossWith o r).peer = (s.peer.byte s.draws o).2 := rfl
@[simp] theorem State.crossWith_trace (o r : Byte) (s : State) : (s.crossWith o r).trace = s.trace ++ [.byte o r] := rfl
@[simp] theorem State.crossWith_draws (o r : Byte) (s : State) : (s.crossWith o r).draws = s.draws + Config.drawStride := rfl

/-! `State.cross` -/

@[simp] theorem State.cross_addrbits (o : Byte) (s : State) : (s.cross o).addrbits = s.addrbits := rfl
@[simp] theorem State.cross_buf10 (o : Byte) (s : State) : (s.cross o).buf10 = s.buf10 := rfl
@[simp] theorem State.cross_buf20 (o : Byte) (s : State) : (s.cross o).buf20 = s.buf20 := rfl
@[simp] theorem State.cross_buf21 (o : Byte) (s : State) : (s.cross o).buf21 = s.buf21 := rfl
@[simp] theorem State.cross_buf30 (o : Byte) (s : State) : (s.cross o).buf30 = s.buf30 := rfl
@[simp] theorem State.cross_buf31 (o : Byte) (s : State) : (s.cross o).buf31 = s.buf31 := rfl
@[simp] theorem State.cross_buf32 (o : Byte) (s : State) : (s.cross o).buf32 = s.buf32 := rfl
@[simp] theorem State.cross_t8 (o : Byte) (s : State) : (s.cross o).t8 = s.t8 := rfl
@[simp] theorem State.cross_t16 (o : Byte) (s : State) : (s.cross o).t16 = s.t16 := rfl
@[simp] theorem State.cross_cs (o : Byte) (s : State) : (s.cross o).cs = s.cs := rfl
@[simp] theorem State.cross_drdyPullup (o : Byte) (s : State) : (s.cross o).drdyPullup = s.drdyPullup := rfl
@[simp] theorem State.cross_busy (o : Byte) (s : State) : (s.cross o).busy = s.busy := rfl
@[simp] theorem State.cross_seq (o : Byte) (s : State) : (s.cross o).seq = s.seq := rfl
@[simp] theorem State.cross_rspValid (o : Byte) (s : State) : (s.cross o).rspValid = s.rspValid := rfl
@[simp] theorem State.cross_rspStatus (o : Byte) (s : State) : (s.cross o).rspStatus = s.rspStatus := rfl
@[simp] theorem State.cross_rspData (o : Byte) (s : State) : (s.cross o).rspData = s.rspData := rfl
@[simp] theorem State.cross_rspFaultInfo (o : Byte) (s : State) : (s.cross o).rspFaultInfo = s.rspFaultInfo := rfl
@[simp] theorem State.cross_faulted (o : Byte) (s : State) : (s.cross o).faulted = s.faulted := rfl
@[simp] theorem State.cross_argA (o : Byte) (s : State) : (s.cross o).argA = s.argA := rfl
@[simp] theorem State.cross_argD (o : Byte) (s : State) : (s.cross o).argD = s.argD := rfl
@[simp] theorem State.cross_sampled (o : Byte) (s : State) : (s.cross o).sampled = s.sampled := rfl
@[simp] theorem State.cross_sextOut (o : Byte) (s : State) : (s.cross o).sextOut = s.sextOut := rfl
@[simp] theorem State.cross_eventSteps (o : Byte) (s : State) : (s.cross o).eventSteps = s.eventSteps := rfl
@[simp] theorem State.cross_rst (o : Byte) (s : State) : (s.cross o).rst = s.rst := rfl
@[simp] theorem State.cross_cfgAddr (o : Byte) (s : State) : (s.cross o).cfgAddr = s.cfgAddr := rfl
@[simp] theorem State.cross_req (o : Byte) (s : State) : (s.cross o).req = s.req := rfl
@[simp] theorem State.cross_wireIn (o : Byte) (s : State) : (s.cross o).wireIn = s.wireIn := rfl
@[simp] theorem State.cross_chipPowerUp (o : Byte) (s : State) : (s.cross o).chipPowerUp = s.chipPowerUp := rfl
@[simp] theorem State.cross_xfers (o : Byte) (s : State) : (s.cross o).xfers = s.xfers := rfl
@[simp] theorem State.cross_peer (o : Byte) (s : State) : (s.cross o).peer = (s.peer.byte s.draws o).2 := rfl
@[simp] theorem State.cross_trace (o : Byte) (s : State) : (s.cross o).trace = s.trace ++ [.byte o (s.peer.byte s.draws o).1] := rfl
@[simp] theorem State.cross_draws (o : Byte) (s : State) : (s.cross o).draws = s.draws + Config.drawStride := rfl

/-! `State.accept` -/

@[simp] theorem State.accept_addrbits (op : Op) (ph : Phase) (a : BitVec 6) (d : Byte) (s : State) : (s.accept op ph a d).addrbits = s.addrbits := rfl
@[simp] theorem State.accept_buf10 (op : Op) (ph : Phase) (a : BitVec 6) (d : Byte) (s : State) : (s.accept op ph a d).buf10 = s.buf10 := rfl
@[simp] theorem State.accept_buf20 (op : Op) (ph : Phase) (a : BitVec 6) (d : Byte) (s : State) : (s.accept op ph a d).buf20 = s.buf20 := rfl
@[simp] theorem State.accept_buf21 (op : Op) (ph : Phase) (a : BitVec 6) (d : Byte) (s : State) : (s.accept op ph a d).buf21 = s.buf21 := rfl
@[simp] theorem State.accept_buf30 (op : Op) (ph : Phase) (a : BitVec 6) (d : Byte) (s : State) : (s.accept op ph a d).buf30 = s.buf30 := rfl
@[simp] theorem State.accept_buf31 (op : Op) (ph : Phase) (a : BitVec 6) (d : Byte) (s : State) : (s.accept op ph a d).buf31 = s.buf31 := rfl
@[simp] theorem State.accept_buf32 (op : Op) (ph : Phase) (a : BitVec 6) (d : Byte) (s : State) : (s.accept op ph a d).buf32 = s.buf32 := rfl
@[simp] theorem State.accept_t8 (op : Op) (ph : Phase) (a : BitVec 6) (d : Byte) (s : State) : (s.accept op ph a d).t8 = s.t8 := rfl
@[simp] theorem State.accept_t16 (op : Op) (ph : Phase) (a : BitVec 6) (d : Byte) (s : State) : (s.accept op ph a d).t16 = s.t16 := rfl
@[simp] theorem State.accept_cs (op : Op) (ph : Phase) (a : BitVec 6) (d : Byte) (s : State) : (s.accept op ph a d).cs = s.cs := rfl
@[simp] theorem State.accept_drdyPullup (op : Op) (ph : Phase) (a : BitVec 6) (d : Byte) (s : State) : (s.accept op ph a d).drdyPullup = s.drdyPullup := rfl
@[simp] theorem State.accept_busy (op : Op) (ph : Phase) (a : BitVec 6) (d : Byte) (s : State) : (s.accept op ph a d).busy = true := rfl
@[simp] theorem State.accept_seq (op : Op) (ph : Phase) (a : BitVec 6) (d : Byte) (s : State) : (s.accept op ph a d).seq = .pos op 0 ph := rfl
@[simp] theorem State.accept_rspValid (op : Op) (ph : Phase) (a : BitVec 6) (d : Byte) (s : State) : (s.accept op ph a d).rspValid = false := rfl
@[simp] theorem State.accept_rspStatus (op : Op) (ph : Phase) (a : BitVec 6) (d : Byte) (s : State) : (s.accept op ph a d).rspStatus = s.rspStatus := rfl
@[simp] theorem State.accept_rspData (op : Op) (ph : Phase) (a : BitVec 6) (d : Byte) (s : State) : (s.accept op ph a d).rspData = s.rspData := rfl
@[simp] theorem State.accept_rspFaultInfo (op : Op) (ph : Phase) (a : BitVec 6) (d : Byte) (s : State) : (s.accept op ph a d).rspFaultInfo = s.rspFaultInfo := rfl
@[simp] theorem State.accept_faulted (op : Op) (ph : Phase) (a : BitVec 6) (d : Byte) (s : State) : (s.accept op ph a d).faulted = s.faulted := rfl
@[simp] theorem State.accept_argA (op : Op) (ph : Phase) (a : BitVec 6) (d : Byte) (s : State) : (s.accept op ph a d).argA = a := rfl
@[simp] theorem State.accept_argD (op : Op) (ph : Phase) (a : BitVec 6) (d : Byte) (s : State) : (s.accept op ph a d).argD = d := rfl
@[simp] theorem State.accept_sampled (op : Op) (ph : Phase) (a : BitVec 6) (d : Byte) (s : State) : (s.accept op ph a d).sampled = s.sampled := rfl
@[simp] theorem State.accept_sextOut (op : Op) (ph : Phase) (a : BitVec 6) (d : Byte) (s : State) : (s.accept op ph a d).sextOut = s.sextOut := rfl
@[simp] theorem State.accept_eventSteps (op : Op) (ph : Phase) (a : BitVec 6) (d : Byte) (s : State) : (s.accept op ph a d).eventSteps = s.eventSteps := rfl
@[simp] theorem State.accept_rst (op : Op) (ph : Phase) (a : BitVec 6) (d : Byte) (s : State) : (s.accept op ph a d).rst = s.rst := rfl
@[simp] theorem State.accept_cfgAddr (op : Op) (ph : Phase) (a : BitVec 6) (d : Byte) (s : State) : (s.accept op ph a d).cfgAddr = s.cfgAddr := rfl
@[simp] theorem State.accept_req (op : Op) (ph : Phase) (a : BitVec 6) (d : Byte) (s : State) : (s.accept op ph a d).req = s.req := rfl
@[simp] theorem State.accept_wireIn (op : Op) (ph : Phase) (a : BitVec 6) (d : Byte) (s : State) : (s.accept op ph a d).wireIn = s.wireIn := rfl
@[simp] theorem State.accept_chipPowerUp (op : Op) (ph : Phase) (a : BitVec 6) (d : Byte) (s : State) : (s.accept op ph a d).chipPowerUp = s.chipPowerUp := rfl
@[simp] theorem State.accept_xfers (op : Op) (ph : Phase) (a : BitVec 6) (d : Byte) (s : State) : (s.accept op ph a d).xfers = s.xfers := rfl
@[simp] theorem State.accept_peer (op : Op) (ph : Phase) (a : BitVec 6) (d : Byte) (s : State) : (s.accept op ph a d).peer = s.peer := rfl
@[simp] theorem State.accept_trace (op : Op) (ph : Phase) (a : BitVec 6) (d : Byte) (s : State) : (s.accept op ph a d).trace = s.trace := rfl
@[simp] theorem State.accept_draws (op : Op) (ph : Phase) (a : BitVec 6) (d : Byte) (s : State) : (s.accept op ph a d).draws = s.draws := rfl

/-! `State.respond` -/

@[simp] theorem State.respond_addrbits (st : BitVec 2) (v : Word) (s : State) : (s.respond st v).addrbits = s.addrbits := rfl
@[simp] theorem State.respond_buf10 (st : BitVec 2) (v : Word) (s : State) : (s.respond st v).buf10 = s.buf10 := rfl
@[simp] theorem State.respond_buf20 (st : BitVec 2) (v : Word) (s : State) : (s.respond st v).buf20 = s.buf20 := rfl
@[simp] theorem State.respond_buf21 (st : BitVec 2) (v : Word) (s : State) : (s.respond st v).buf21 = s.buf21 := rfl
@[simp] theorem State.respond_buf30 (st : BitVec 2) (v : Word) (s : State) : (s.respond st v).buf30 = s.buf30 := rfl
@[simp] theorem State.respond_buf31 (st : BitVec 2) (v : Word) (s : State) : (s.respond st v).buf31 = s.buf31 := rfl
@[simp] theorem State.respond_buf32 (st : BitVec 2) (v : Word) (s : State) : (s.respond st v).buf32 = s.buf32 := rfl
@[simp] theorem State.respond_t8 (st : BitVec 2) (v : Word) (s : State) : (s.respond st v).t8 = s.t8 := rfl
@[simp] theorem State.respond_t16 (st : BitVec 2) (v : Word) (s : State) : (s.respond st v).t16 = s.t16 := rfl
@[simp] theorem State.respond_cs (st : BitVec 2) (v : Word) (s : State) : (s.respond st v).cs = s.cs := rfl
@[simp] theorem State.respond_drdyPullup (st : BitVec 2) (v : Word) (s : State) : (s.respond st v).drdyPullup = s.drdyPullup := rfl
@[simp] theorem State.respond_busy (st : BitVec 2) (v : Word) (s : State) : (s.respond st v).busy = false := rfl
@[simp] theorem State.respond_seq (st : BitVec 2) (v : Word) (s : State) : (s.respond st v).seq = .idle := rfl
@[simp] theorem State.respond_rspValid (st : BitVec 2) (v : Word) (s : State) : (s.respond st v).rspValid = true := rfl
@[simp] theorem State.respond_rspStatus (st : BitVec 2) (v : Word) (s : State) : (s.respond st v).rspStatus = st := rfl
@[simp] theorem State.respond_rspData (st : BitVec 2) (v : Word) (s : State) : (s.respond st v).rspData = v := rfl
@[simp] theorem State.respond_rspFaultInfo (st : BitVec 2) (v : Word) (s : State) : (s.respond st v).rspFaultInfo = s.rspFaultInfo := rfl
@[simp] theorem State.respond_faulted (st : BitVec 2) (v : Word) (s : State) : (s.respond st v).faulted = s.faulted := rfl
@[simp] theorem State.respond_argA (st : BitVec 2) (v : Word) (s : State) : (s.respond st v).argA = s.argA := rfl
@[simp] theorem State.respond_argD (st : BitVec 2) (v : Word) (s : State) : (s.respond st v).argD = s.argD := rfl
@[simp] theorem State.respond_sampled (st : BitVec 2) (v : Word) (s : State) : (s.respond st v).sampled = s.sampled := rfl
@[simp] theorem State.respond_sextOut (st : BitVec 2) (v : Word) (s : State) : (s.respond st v).sextOut = s.sextOut := rfl
@[simp] theorem State.respond_eventSteps (st : BitVec 2) (v : Word) (s : State) : (s.respond st v).eventSteps = s.eventSteps := rfl
@[simp] theorem State.respond_rst (st : BitVec 2) (v : Word) (s : State) : (s.respond st v).rst = s.rst := rfl
@[simp] theorem State.respond_cfgAddr (st : BitVec 2) (v : Word) (s : State) : (s.respond st v).cfgAddr = s.cfgAddr := rfl
@[simp] theorem State.respond_req (st : BitVec 2) (v : Word) (s : State) : (s.respond st v).req = s.req := rfl
@[simp] theorem State.respond_wireIn (st : BitVec 2) (v : Word) (s : State) : (s.respond st v).wireIn = s.wireIn := rfl
@[simp] theorem State.respond_chipPowerUp (st : BitVec 2) (v : Word) (s : State) : (s.respond st v).chipPowerUp = s.chipPowerUp := rfl
@[simp] theorem State.respond_xfers (st : BitVec 2) (v : Word) (s : State) : (s.respond st v).xfers = s.xfers := rfl
@[simp] theorem State.respond_peer (st : BitVec 2) (v : Word) (s : State) : (s.respond st v).peer = s.peer := rfl
@[simp] theorem State.respond_trace (st : BitVec 2) (v : Word) (s : State) : (s.respond st v).trace = s.trace := rfl
@[simp] theorem State.respond_draws (st : BitVec 2) (v : Word) (s : State) : (s.respond st v).draws = s.draws := rfl

/-! `State.load`: the fields no load writes -/

@[simp] theorem State.load_addrbits (p : Prim) (s : State) : (s.load p).addrbits = s.addrbits := by cases p <;> rfl
@[simp] theorem State.load_buf31 (p : Prim) (s : State) : (s.load p).buf31 = s.buf31 := by cases p <;> rfl
@[simp] theorem State.load_buf32 (p : Prim) (s : State) : (s.load p).buf32 = s.buf32 := by cases p <;> rfl
@[simp] theorem State.load_t8 (p : Prim) (s : State) : (s.load p).t8 = s.t8 := by cases p <;> rfl
@[simp] theorem State.load_t16 (p : Prim) (s : State) : (s.load p).t16 = s.t16 := by cases p <;> rfl
@[simp] theorem State.load_cs (p : Prim) (s : State) : (s.load p).cs = s.cs := by cases p <;> rfl
@[simp] theorem State.load_drdyPullup (p : Prim) (s : State) : (s.load p).drdyPullup = s.drdyPullup := by cases p <;> rfl
@[simp] theorem State.load_busy (p : Prim) (s : State) : (s.load p).busy = s.busy := by cases p <;> rfl
@[simp] theorem State.load_seq (p : Prim) (s : State) : (s.load p).seq = s.seq := by cases p <;> rfl
@[simp] theorem State.load_rspValid (p : Prim) (s : State) : (s.load p).rspValid = s.rspValid := by cases p <;> rfl
@[simp] theorem State.load_rspStatus (p : Prim) (s : State) : (s.load p).rspStatus = s.rspStatus := by cases p <;> rfl
@[simp] theorem State.load_rspData (p : Prim) (s : State) : (s.load p).rspData = s.rspData := by cases p <;> rfl
@[simp] theorem State.load_rspFaultInfo (p : Prim) (s : State) : (s.load p).rspFaultInfo = s.rspFaultInfo := by cases p <;> rfl
@[simp] theorem State.load_faulted (p : Prim) (s : State) : (s.load p).faulted = s.faulted := by cases p <;> rfl
@[simp] theorem State.load_argA (p : Prim) (s : State) : (s.load p).argA = s.argA := by cases p <;> rfl
@[simp] theorem State.load_argD (p : Prim) (s : State) : (s.load p).argD = s.argD := by cases p <;> rfl
@[simp] theorem State.load_sampled (p : Prim) (s : State) : (s.load p).sampled = s.sampled := by cases p <;> rfl
@[simp] theorem State.load_sextOut (p : Prim) (s : State) : (s.load p).sextOut = s.sextOut := by cases p <;> rfl
@[simp] theorem State.load_eventSteps (p : Prim) (s : State) : (s.load p).eventSteps = s.eventSteps := by cases p <;> rfl
@[simp] theorem State.load_rst (p : Prim) (s : State) : (s.load p).rst = s.rst := by cases p <;> rfl
@[simp] theorem State.load_cfgAddr (p : Prim) (s : State) : (s.load p).cfgAddr = s.cfgAddr := by cases p <;> rfl
@[simp] theorem State.load_req (p : Prim) (s : State) : (s.load p).req = s.req := by cases p <;> rfl
@[simp] theorem State.load_wireIn (p : Prim) (s : State) : (s.load p).wireIn = s.wireIn := by cases p <;> rfl
@[simp] theorem State.load_chipPowerUp (p : Prim) (s : State) : (s.load p).chipPowerUp = s.chipPowerUp := by cases p <;> rfl
@[simp] theorem State.load_xfers (p : Prim) (s : State) : (s.load p).xfers = s.xfers := by cases p <;> rfl
@[simp] theorem State.load_peer (p : Prim) (s : State) : (s.load p).peer = s.peer := by cases p <;> rfl
@[simp] theorem State.load_trace (p : Prim) (s : State) : (s.load p).trace = s.trace := by cases p <;> rfl
@[simp] theorem State.load_draws (p : Prim) (s : State) : (s.load p).draws = s.draws := by cases p <;> rfl

/-! `State.finish`: the fields no primitive's end writes -/

@[simp] theorem State.finish_addrbits (p : Prim) (s : State) : (s.finish p).addrbits = s.addrbits := by cases p <;> rfl
@[simp] theorem State.finish_buf10 (p : Prim) (s : State) : (s.finish p).buf10 = s.buf10 := by cases p <;> rfl
@[simp] theorem State.finish_buf20 (p : Prim) (s : State) : (s.finish p).buf20 = s.buf20 := by cases p <;> rfl
@[simp] theorem State.finish_buf21 (p : Prim) (s : State) : (s.finish p).buf21 = s.buf21 := by cases p <;> rfl
@[simp] theorem State.finish_buf30 (p : Prim) (s : State) : (s.finish p).buf30 = s.buf30 := by cases p <;> rfl
@[simp] theorem State.finish_buf31 (p : Prim) (s : State) : (s.finish p).buf31 = s.buf31 := by cases p <;> rfl
@[simp] theorem State.finish_buf32 (p : Prim) (s : State) : (s.finish p).buf32 = s.buf32 := by cases p <;> rfl
@[simp] theorem State.finish_cs (p : Prim) (s : State) : (s.finish p).cs = s.cs := by cases p <;> rfl
@[simp] theorem State.finish_drdyPullup (p : Prim) (s : State) : (s.finish p).drdyPullup = s.drdyPullup := by cases p <;> rfl
@[simp] theorem State.finish_busy (p : Prim) (s : State) : (s.finish p).busy = s.busy := by cases p <;> rfl
@[simp] theorem State.finish_seq (p : Prim) (s : State) : (s.finish p).seq = s.seq := by cases p <;> rfl
@[simp] theorem State.finish_rspValid (p : Prim) (s : State) : (s.finish p).rspValid = s.rspValid := by cases p <;> rfl
@[simp] theorem State.finish_rspStatus (p : Prim) (s : State) : (s.finish p).rspStatus = s.rspStatus := by cases p <;> rfl
@[simp] theorem State.finish_rspData (p : Prim) (s : State) : (s.finish p).rspData = s.rspData := by cases p <;> rfl
@[simp] theorem State.finish_rspFaultInfo (p : Prim) (s : State) : (s.finish p).rspFaultInfo = s.rspFaultInfo := by cases p <;> rfl
@[simp] theorem State.finish_faulted (p : Prim) (s : State) : (s.finish p).faulted = s.faulted := by cases p <;> rfl
@[simp] theorem State.finish_argA (p : Prim) (s : State) : (s.finish p).argA = s.argA := by cases p <;> rfl
@[simp] theorem State.finish_argD (p : Prim) (s : State) : (s.finish p).argD = s.argD := by cases p <;> rfl
@[simp] theorem State.finish_sampled (p : Prim) (s : State) : (s.finish p).sampled = s.sampled := by cases p <;> rfl
@[simp] theorem State.finish_sextOut (p : Prim) (s : State) : (s.finish p).sextOut = s.sextOut := by cases p <;> rfl
@[simp] theorem State.finish_eventSteps (p : Prim) (s : State) : (s.finish p).eventSteps = s.eventSteps := by cases p <;> rfl
@[simp] theorem State.finish_rst (p : Prim) (s : State) : (s.finish p).rst = s.rst := by cases p <;> rfl
@[simp] theorem State.finish_cfgAddr (p : Prim) (s : State) : (s.finish p).cfgAddr = s.cfgAddr := by cases p <;> rfl
@[simp] theorem State.finish_req (p : Prim) (s : State) : (s.finish p).req = s.req := by cases p <;> rfl
@[simp] theorem State.finish_wireIn (p : Prim) (s : State) : (s.finish p).wireIn = s.wireIn := by cases p <;> rfl
@[simp] theorem State.finish_chipPowerUp (p : Prim) (s : State) : (s.finish p).chipPowerUp = s.chipPowerUp := by cases p <;> rfl
@[simp] theorem State.finish_xfers (p : Prim) (s : State) : (s.finish p).xfers = s.xfers := by cases p <;> rfl
@[simp] theorem State.finish_peer (p : Prim) (s : State) : (s.finish p).peer = s.peer := by cases p <;> rfl
@[simp] theorem State.finish_trace (p : Prim) (s : State) : (s.finish p).trace = s.trace := by cases p <;> rfl
@[simp] theorem State.finish_draws (p : Prim) (s : State) : (s.finish p).draws = s.draws := by cases p <;> rfl

/-! `State.setBufByte`: the fields outside the buffers -/

@[simp] theorem State.setBufByte_addrbits (b : Buf) (i : Nat) (v : Byte) (s : State) : (s.setBufByte b i v).addrbits = s.addrbits := by unfold State.setBufByte; split <;> rfl
@[simp] theorem State.setBufByte_t8 (b : Buf) (i : Nat) (v : Byte) (s : State) : (s.setBufByte b i v).t8 = s.t8 := by unfold State.setBufByte; split <;> rfl
@[simp] theorem State.setBufByte_t16 (b : Buf) (i : Nat) (v : Byte) (s : State) : (s.setBufByte b i v).t16 = s.t16 := by unfold State.setBufByte; split <;> rfl
@[simp] theorem State.setBufByte_cs (b : Buf) (i : Nat) (v : Byte) (s : State) : (s.setBufByte b i v).cs = s.cs := by unfold State.setBufByte; split <;> rfl
@[simp] theorem State.setBufByte_drdyPullup (b : Buf) (i : Nat) (v : Byte) (s : State) : (s.setBufByte b i v).drdyPullup = s.drdyPullup := by unfold State.setBufByte; split <;> rfl
@[simp] theorem State.setBufByte_busy (b : Buf) (i : Nat) (v : Byte) (s : State) : (s.setBufByte b i v).busy = s.busy := by unfold State.setBufByte; split <;> rfl
@[simp] theorem State.setBufByte_seq (b : Buf) (i : Nat) (v : Byte) (s : State) : (s.setBufByte b i v).seq = s.seq := by unfold State.setBufByte; split <;> rfl
@[simp] theorem State.setBufByte_rspValid (b : Buf) (i : Nat) (v : Byte) (s : State) : (s.setBufByte b i v).rspValid = s.rspValid := by unfold State.setBufByte; split <;> rfl
@[simp] theorem State.setBufByte_rspStatus (b : Buf) (i : Nat) (v : Byte) (s : State) : (s.setBufByte b i v).rspStatus = s.rspStatus := by unfold State.setBufByte; split <;> rfl
@[simp] theorem State.setBufByte_rspData (b : Buf) (i : Nat) (v : Byte) (s : State) : (s.setBufByte b i v).rspData = s.rspData := by unfold State.setBufByte; split <;> rfl
@[simp] theorem State.setBufByte_rspFaultInfo (b : Buf) (i : Nat) (v : Byte) (s : State) : (s.setBufByte b i v).rspFaultInfo = s.rspFaultInfo := by unfold State.setBufByte; split <;> rfl
@[simp] theorem State.setBufByte_faulted (b : Buf) (i : Nat) (v : Byte) (s : State) : (s.setBufByte b i v).faulted = s.faulted := by unfold State.setBufByte; split <;> rfl
@[simp] theorem State.setBufByte_argA (b : Buf) (i : Nat) (v : Byte) (s : State) : (s.setBufByte b i v).argA = s.argA := by unfold State.setBufByte; split <;> rfl
@[simp] theorem State.setBufByte_argD (b : Buf) (i : Nat) (v : Byte) (s : State) : (s.setBufByte b i v).argD = s.argD := by unfold State.setBufByte; split <;> rfl
@[simp] theorem State.setBufByte_sampled (b : Buf) (i : Nat) (v : Byte) (s : State) : (s.setBufByte b i v).sampled = s.sampled := by unfold State.setBufByte; split <;> rfl
@[simp] theorem State.setBufByte_sextOut (b : Buf) (i : Nat) (v : Byte) (s : State) : (s.setBufByte b i v).sextOut = s.sextOut := by unfold State.setBufByte; split <;> rfl
@[simp] theorem State.setBufByte_eventSteps (b : Buf) (i : Nat) (v : Byte) (s : State) : (s.setBufByte b i v).eventSteps = s.eventSteps := by unfold State.setBufByte; split <;> rfl
@[simp] theorem State.setBufByte_rst (b : Buf) (i : Nat) (v : Byte) (s : State) : (s.setBufByte b i v).rst = s.rst := by unfold State.setBufByte; split <;> rfl
@[simp] theorem State.setBufByte_cfgAddr (b : Buf) (i : Nat) (v : Byte) (s : State) : (s.setBufByte b i v).cfgAddr = s.cfgAddr := by unfold State.setBufByte; split <;> rfl
@[simp] theorem State.setBufByte_req (b : Buf) (i : Nat) (v : Byte) (s : State) : (s.setBufByte b i v).req = s.req := by unfold State.setBufByte; split <;> rfl
@[simp] theorem State.setBufByte_wireIn (b : Buf) (i : Nat) (v : Byte) (s : State) : (s.setBufByte b i v).wireIn = s.wireIn := by unfold State.setBufByte; split <;> rfl
@[simp] theorem State.setBufByte_chipPowerUp (b : Buf) (i : Nat) (v : Byte) (s : State) : (s.setBufByte b i v).chipPowerUp = s.chipPowerUp := by unfold State.setBufByte; split <;> rfl
@[simp] theorem State.setBufByte_xfers (b : Buf) (i : Nat) (v : Byte) (s : State) : (s.setBufByte b i v).xfers = s.xfers := by unfold State.setBufByte; split <;> rfl
@[simp] theorem State.setBufByte_peer (b : Buf) (i : Nat) (v : Byte) (s : State) : (s.setBufByte b i v).peer = s.peer := by unfold State.setBufByte; split <;> rfl
@[simp] theorem State.setBufByte_trace (b : Buf) (i : Nat) (v : Byte) (s : State) : (s.setBufByte b i v).trace = s.trace := by unfold State.setBufByte; split <;> rfl
@[simp] theorem State.setBufByte_draws (b : Buf) (i : Nat) (v : Byte) (s : State) : (s.setBufByte b i v).draws = s.draws := by unfold State.setBufByte; split <;> rfl

/-! `State.driveCs`: the fields no edge changes -/

@[simp] theorem State.driveCs_addrbits (l : Bool) (s : State) : (s.driveCs l).addrbits = s.addrbits := by unfold State.driveCs; split; (· rfl); split <;> rfl
@[simp] theorem State.driveCs_buf10 (l : Bool) (s : State) : (s.driveCs l).buf10 = s.buf10 := by unfold State.driveCs; split; (· rfl); split <;> rfl
@[simp] theorem State.driveCs_buf20 (l : Bool) (s : State) : (s.driveCs l).buf20 = s.buf20 := by unfold State.driveCs; split; (· rfl); split <;> rfl
@[simp] theorem State.driveCs_buf21 (l : Bool) (s : State) : (s.driveCs l).buf21 = s.buf21 := by unfold State.driveCs; split; (· rfl); split <;> rfl
@[simp] theorem State.driveCs_buf30 (l : Bool) (s : State) : (s.driveCs l).buf30 = s.buf30 := by unfold State.driveCs; split; (· rfl); split <;> rfl
@[simp] theorem State.driveCs_buf31 (l : Bool) (s : State) : (s.driveCs l).buf31 = s.buf31 := by unfold State.driveCs; split; (· rfl); split <;> rfl
@[simp] theorem State.driveCs_buf32 (l : Bool) (s : State) : (s.driveCs l).buf32 = s.buf32 := by unfold State.driveCs; split; (· rfl); split <;> rfl
@[simp] theorem State.driveCs_t8 (l : Bool) (s : State) : (s.driveCs l).t8 = s.t8 := by unfold State.driveCs; split; (· rfl); split <;> rfl
@[simp] theorem State.driveCs_t16 (l : Bool) (s : State) : (s.driveCs l).t16 = s.t16 := by unfold State.driveCs; split; (· rfl); split <;> rfl
@[simp] theorem State.driveCs_drdyPullup (l : Bool) (s : State) : (s.driveCs l).drdyPullup = s.drdyPullup := by unfold State.driveCs; split; (· rfl); split <;> rfl
@[simp] theorem State.driveCs_busy (l : Bool) (s : State) : (s.driveCs l).busy = s.busy := by unfold State.driveCs; split; (· rfl); split <;> rfl
@[simp] theorem State.driveCs_seq (l : Bool) (s : State) : (s.driveCs l).seq = s.seq := by unfold State.driveCs; split; (· rfl); split <;> rfl
@[simp] theorem State.driveCs_rspValid (l : Bool) (s : State) : (s.driveCs l).rspValid = s.rspValid := by unfold State.driveCs; split; (· rfl); split <;> rfl
@[simp] theorem State.driveCs_rspStatus (l : Bool) (s : State) : (s.driveCs l).rspStatus = s.rspStatus := by unfold State.driveCs; split; (· rfl); split <;> rfl
@[simp] theorem State.driveCs_rspData (l : Bool) (s : State) : (s.driveCs l).rspData = s.rspData := by unfold State.driveCs; split; (· rfl); split <;> rfl
@[simp] theorem State.driveCs_rspFaultInfo (l : Bool) (s : State) : (s.driveCs l).rspFaultInfo = s.rspFaultInfo := by unfold State.driveCs; split; (· rfl); split <;> rfl
@[simp] theorem State.driveCs_faulted (l : Bool) (s : State) : (s.driveCs l).faulted = s.faulted := by unfold State.driveCs; split; (· rfl); split <;> rfl
@[simp] theorem State.driveCs_argA (l : Bool) (s : State) : (s.driveCs l).argA = s.argA := by unfold State.driveCs; split; (· rfl); split <;> rfl
@[simp] theorem State.driveCs_argD (l : Bool) (s : State) : (s.driveCs l).argD = s.argD := by unfold State.driveCs; split; (· rfl); split <;> rfl
@[simp] theorem State.driveCs_sampled (l : Bool) (s : State) : (s.driveCs l).sampled = s.sampled := by unfold State.driveCs; split; (· rfl); split <;> rfl
@[simp] theorem State.driveCs_sextOut (l : Bool) (s : State) : (s.driveCs l).sextOut = s.sextOut := by unfold State.driveCs; split; (· rfl); split <;> rfl
@[simp] theorem State.driveCs_eventSteps (l : Bool) (s : State) : (s.driveCs l).eventSteps = s.eventSteps := by unfold State.driveCs; split; (· rfl); split <;> rfl
@[simp] theorem State.driveCs_rst (l : Bool) (s : State) : (s.driveCs l).rst = s.rst := by unfold State.driveCs; split; (· rfl); split <;> rfl
@[simp] theorem State.driveCs_cfgAddr (l : Bool) (s : State) : (s.driveCs l).cfgAddr = s.cfgAddr := by unfold State.driveCs; split; (· rfl); split <;> rfl
@[simp] theorem State.driveCs_req (l : Bool) (s : State) : (s.driveCs l).req = s.req := by unfold State.driveCs; split; (· rfl); split <;> rfl
@[simp] theorem State.driveCs_wireIn (l : Bool) (s : State) : (s.driveCs l).wireIn = s.wireIn := by unfold State.driveCs; split; (· rfl); split <;> rfl
@[simp] theorem State.driveCs_chipPowerUp (l : Bool) (s : State) : (s.driveCs l).chipPowerUp = s.chipPowerUp := by unfold State.driveCs; split; (· rfl); split <;> rfl
@[simp] theorem State.driveCs_xfers (l : Bool) (s : State) : (s.driveCs l).xfers = s.xfers := by unfold State.driveCs; split; (· rfl); split <;> rfl

@[simp] theorem State.received_eq (o : Byte) (s : State) : s.received o = (s.peer.byte s.draws o).1 := rfl

/-- Chip-select is at the level it is driven to. -/
@[simp] theorem State.driveCs_cs (l : Bool) (s : State) : (s.driveCs l).cs = l := by
  unfold State.driveCs
  split
  · simp_all
  · split <;> simp_all

end Sys2Proof.Machine
end

