-- ==== Sys2Proof/Laws/Ops.lean ====
section
/-! SUPPORT. One lemma per shared operation that says what it can do, and what every event of an operation leaves alone. -/

namespace Sys2Proof.Machine

/-! The transaction buffers (00_scope.md R12). -/

theorem State.bufByte_setBufByte_same {b : Buf} {i : Nat} {v : Byte} {s : State} : (s.setBufByte b i v).bufByte b i = v := by
  cases b
  · rfl
  · rcases i with _ | i <;> rfl
  · rcases i with _ | _ | i <;> rfl

theorem State.bufByte_setBufByte_buf {b c : Buf} (h : c ≠ b) (i j : Nat) (v : Byte) (s : State) :
    (s.setBufByte b i v).bufByte c j = s.bufByte c j := by
  cases b <;> cases c <;> first
    | exact absurd rfl h
    | (rcases i with _ | _ | i <;> rcases j with _ | _ | j <;> rfl)

theorem State.bufByte_setBufByte_index {p : Prim} {i j : Nat} (hi : i < primLen p) (hj : j < primLen p) (h : j ≠ i) (v : Byte)
    (s : State) : (s.setBufByte (primBuf p) i v).bufByte (primBuf p) j = s.bufByte (primBuf p) j := by
  cases p <;> simp only [primLen] at hi hj <;> rcases i with _ | _ | _ | i <;> rcases j with _ | _ | _ | j <;>
    first | omega | rfl

/-- Spoiling a buffer changes buffer bytes only (60_exceptions.md R202). -/
theorem State.spoil_spec (b : Buf) (i n : Nat) (s : State) :
    ∃ x0 x1 x2 x3 x4 x5, s.spoil b i n =
      { s with buf10 := x0, buf20 := x1, buf21 := x2, buf30 := x3, buf31 := x4, buf32 := x5 } := by
  induction n generalizing i with
  | zero => exact ⟨_, _, _, _, _, _, rfl⟩
  | succ n ih =>
    obtain ⟨x0, x1, x2, x3, x4, x5, h⟩ := ih (i + 1)
    simp only [State.spoil, h]
    cases b
    · exact ⟨_, _, _, _, _, _, rfl⟩
    · rcases i with _ | i <;> exact ⟨_, _, _, _, _, _, rfl⟩
    · rcases i with _ | _ | i <;> exact ⟨_, _, _, _, _, _, rfl⟩

/-- Spoiling a buffer leaves the other buffers alone. -/
theorem State.spoil_bufByte_buf {b c : Buf} (h : c ≠ b) (i n j : Nat) (s : State) :
    (s.spoil b i n).bufByte c j = s.bufByte c j := by
  induction n generalizing i with
  | zero => rfl
  | succ n ih => rw [State.spoil, State.bufByte_setBufByte_buf h, ih]

/-- Spoiling a buffer from byte `i` on leaves the bytes before `i` alone. -/
theorem State.spoil_bufByte_before {p : Prim} {i n j : Nat} (hn : i + n ≤ primLen p) (hj : j < i) (s : State) :
    (s.spoil (primBuf p) i n).bufByte (primBuf p) j = s.bufByte (primBuf p) j := by
  induction n generalizing i with
  | zero => rfl
  | succ n ih =>
    rw [State.spoil, State.bufByte_setBufByte_index (by omega) (by omega) (by omega), ih (by omega) (by omega)]

/-! Chip-select (00_scope.md R12). -/

/-- Driving chip-select to the level it has does nothing (40_primitives.md R130 (b)). -/
theorem State.driveCs_same {level : Bool} {s : State} (h : s.cs = level) : s.driveCs level = s := by simp [State.driveCs, h]

theorem State.driveCs_fall {s : State} (h : s.cs = true) :
    s.driveCs false = { s with cs := false, peer := s.peer.csFall }.emit .csFall := by simp [State.driveCs, h]

theorem State.driveCs_rise {s : State} (h : s.cs = false) :
    s.driveCs true = ({ s with cs := true, peer := s.peer.csRise s.draws }.emit .csRise).drawn := by simp [State.driveCs, h]

/-- What driving chip-select can do: the level is taken, an edge is in the trace where it changed, and the chip sees the edge. -/
theorem State.driveCs_cases (level : Bool) (s : State) :
    (s.cs = level ∧ s.driveCs level = s) ∨
    (s.cs = true ∧ level = false ∧ s.driveCs level = { s with cs := false, peer := s.peer.csFall }.emit .csFall) ∨
    (s.cs = false ∧ level = true ∧
      s.driveCs level = ({ s with cs := true, peer := s.peer.csRise s.draws }.emit .csRise).drawn) := by
  cases hc : s.cs <;> cases level
  · exact .inl ⟨rfl, State.driveCs_same hc⟩
  · exact .inr (.inr ⟨rfl, rfl, State.driveCs_rise hc⟩)
  · exact .inr (.inl ⟨rfl, rfl, State.driveCs_fall hc⟩)
  · exact .inl ⟨rfl, State.driveCs_same hc⟩

/-! Taking a transport fault, and an operation's result. -/

/-- Taking a transport fault with chip-select low (60_exceptions.md R202): everything it does. -/
theorem State.abort_spec (p : Prim) (i info : Nat) (s : State) (hcs : s.cs = false) :
    ∃ x0 x1 x2 x3 x4 x5 q n l v,
      s.abort p i info = { s with
        buf10 := x0, buf20 := x1, buf21 := x2, buf30 := x3, buf31 := x4, buf32 := x5, peer := q, draws := n, cs := l, busy := false
        seq := .idle, rspValid := true, rspStatus := statusTransportFault, rspData := v, rspFaultInfo := info, faulted := true
        trace := s.trace ++ (if l then [.csRise] else []) } ∧
      (l = false → q = s.peer) ∧ (l = true → ∃ m, q = s.peer.csRise m) := by
  have h1 : ∃ x0 x1 x2 x3 x4 x5 m,
      (if primCaptures p then (s.spoil (primBuf p) i (primLen p - i)).drawn else s) =
        { s with buf10 := x0, buf20 := x1, buf21 := x2, buf30 := x3, buf31 := x4, buf32 := x5, draws := m } := by
    obtain ⟨x0, x1, x2, x3, x4, x5, h⟩ := State.spoil_spec (primBuf p) i (primLen p - i) s
    split
    · rw [h]; exact ⟨_, _, _, _, _, _, _, rfl⟩
    · exact ⟨_, _, _, _, _, _, _, rfl⟩
  obtain ⟨x0, x1, x2, x3, x4, x5, m, h⟩ := h1
  unfold State.abort
  simp only [h]
  cases hl : Config.freeBit m
  · rw [State.driveCs_same (by exact hcs)]
    refine ⟨x0, x1, x2, x3, x4, x5, s.peer, m + Config.drawStride + Config.drawStride, false,
      Config.freeWord (m + Config.drawStride), ?_, fun _ => rfl, fun e => ?_⟩
    · simp [State.drawn, State.respond, hcs]
    · cases e
  · rw [State.driveCs_rise (by exact hcs)]
    refine ⟨x0, x1, x2, x3, x4, x5, s.peer.csRise m, m + Config.drawStride + Config.drawStride + Config.drawStride, true,
      Config.freeWord (m + Config.drawStride + Config.drawStride), ?_, fun e => ?_, fun _ => ⟨m, rfl⟩⟩
    · simp [State.drawn, State.respond, State.emit]
    · cases e

/-- Which buffer bytes taking a transport fault leaves alone (60_exceptions.md R202): those of the other buffers, and in the buffer
in use those before byte `i`, or all of them where the transfer is write-only. -/
theorem State.abort_bufByte (p : Prim) (i info : Nat) (s : State) (hi : i ≤ primLen p) :
    (∀ b, b ≠ primBuf p → ∀ j, (s.abort p i info).bufByte b j = s.bufByte b j) ∧
    ∀ j, j < primLen p → (j < i ∨ primCaptures p = false) →
      (s.abort p i info).bufByte (primBuf p) j = s.bufByte (primBuf p) j := by
  have key : ∀ (t : State) (b : Buf) (j : Nat) (l : Bool) (st : BitVec 2) (v : Word),
      State.bufByte b j { ((((t.driveCs l).drawn).respond st v).drawn) with rspFaultInfo := info, faulted := true } =
        t.bufByte b j := by
    intro t b j l st v
    cases b
    · simp [State.bufByte]
    · rcases j with _ | j <;> simp [State.bufByte]
    · rcases j with _ | _ | j <;> simp [State.bufByte]
  have kd : ∀ (t : State) (b : Buf) (j : Nat), t.drawn.bufByte b j = t.bufByte b j := by
    intro t b j
    cases b
    · rfl
    · rcases j with _ | j <;> rfl
    · rcases j with _ | _ | j <;> rfl
  refine ⟨fun b hb j => ?_, fun j hj hc => ?_⟩
  · unfold State.abort
    simp only [key]
    split
    · rw [kd, State.spoil_bufByte_buf hb]
    · rfl
  · unfold State.abort
    simp only [key]
    split
    · rename_i h
      rw [kd, State.spoil_bufByte_before (by omega) (hc.resolve_right (by simp [h]))]
    · rfl

/-- An operation's result: an OK response, and for READS16 the sign-extender's output (10_state.md R31, 41_public_ops.md R146). -/
theorem State.deliver_spec (op : Op) (s : State) :
    ∃ d o, s.deliver op = { s with sextOut := o }.respond statusOk d := by
  cases op <;> exact ⟨_, _, rfl⟩

/-- Which steps an operation has does not depend on its operands (30_encoding.md R105). -/
theorem primAt_isSome (op : Op) (k : Nat) (a : BitVec 6) (d t8 : Byte) :
    (primAt op k a d t8).isSome = (primAt op k 0#6 0#8 0#8).isSome := by
  cases op <;> rcases k with _ | _ | _ | _ | k <;> rfl

/-- After a step: the operation's next step, or its response. -/
theorem afterStep_cases (op : Op) (k : Nat) :
    ((primAt op (k + 1) 0#6 0#8 0#8).isSome = true ∧ afterStep op k = .pos op (k + 1) .assert) ∨
    ((primAt op (k + 1) 0#6 0#8 0#8).isNone = true ∧ afterStep op k = .pos op k .respond) := by
  unfold afterStep
  split
  · rename_i h; exact .inl ⟨h, rfl⟩
  · rename_i h; exact .inr ⟨by simpa using h, rfl⟩

/-! Events and runs of events. -/

/-- What one event of the operation in progress can be. -/
theorem State.tick_cases (s : State) :
    s.tick = (false, s) ∨
    (∃ op k, s.seq = .pos op k .init ∧ s.tick = (true, s.constructInit)) ∨
    (∃ op k, s.seq = .pos op k .sample ∧ s.tick = (true, s.sampleDrdy)) ∨
    (∃ op k, s.seq = .pos op k .respond ∧ s.tick = (true, s.deliver op)) ∨
    (∃ op k p, s.seq = .pos op k .assert ∧ s.prim op k = some p ∧ s.tick = (true, s.openFrame op k p)) ∨
    (∃ op k i p, s.seq = .pos op k (.byte i) ∧ s.prim op k = some p ∧
      ((∃ r, s.tick = (true, s.convTick.answered.exchanged op k p i r)) ∨ s.tick = (false, s.convTick.answered) ∨
        (∃ info, s.tick = (true, s.convTick.answered.abort p i info)) ∨
        ∃ info, s.tick =
          (true, (s.convTick.answered.cross (s.convTick.answered.bufByte (primBuf p) i)).abort p i info))) ∨
    (∃ op k p, s.seq = .pos op k .deassert ∧ s.prim op k = some p ∧ s.tick = (true, s.closeFrame op k p)) := by
  unfold State.tick
  split
  · exact .inl rfl
  · rename_i op k h; exact .inr (.inl ⟨op, k, h, rfl⟩)
  · rename_i op k h; exact .inr (.inr (.inl ⟨op, k, h, rfl⟩))
  · rename_i op k h; exact .inr (.inr (.inr (.inl ⟨op, k, h, rfl⟩)))
  · rename_i op k h
    split
    · rename_i p hp; exact .inr (.inr (.inr (.inr (.inl ⟨op, k, p, h, hp, rfl⟩))))
    · exact .inl rfl
  · rename_i op k i h
    split
    · rename_i p hp
      refine .inr (.inr (.inr (.inr (.inr (.inl ⟨op, k, i, p, h, hp, ?_⟩)))))
      simp only [State.exchange]
      split
      · exact .inl ⟨_, rfl⟩
      · exact .inl ⟨_, rfl⟩
      · exact .inr (.inl rfl)
      · exact .inr (.inr (.inl ⟨_, rfl⟩))
      · exact .inr (.inr (.inr ⟨_, rfl⟩))
    · exact .inl rfl
  · rename_i op k h
    split
    · rename_i p hp; exact .inr (.inr (.inr (.inr (.inr (.inr ⟨op, k, p, h, hp, rfl⟩)))))
    · exact .inl rfl

/-- What every event keeps, every run of events keeps. -/
theorem State.run_keeps {P : State → Prop} (h : ∀ s, P s → P s.tick.2) {s : State} (f : Nat) (hs : P s) : P (s.run f) := by
  induction f generalizing s with
  | zero => exact hs
  | succ f ih =>
    unfold State.run
    split
    · exact ih (h s hs)
    · exact h s hs

/-- An idle block runs no event. -/
theorem State.run_idle {s : State} (f : Nat) (h : s.seq = .idle) : s.run f = s := by
  cases f <;> simp [State.run, State.tick, h]

theorem State.run_tick {s t : State} {f : Nat} (h : s.tick = (true, t)) : s.run (f + 1) = t.run f := by
  simp [State.run, h]

/-- The input ports but for the transport's, which only a step's own port is cleared of, and the grain of a step: no event of an
operation writes one (10_state.md R34; log 1). -/
structure State.SamePorts (s t : State) : Prop where
  rst : t.rst = s.rst
  cfgAddr : t.cfgAddr = s.cfgAddr
  req : t.req = s.req
  wireIn : t.wireIn = s.wireIn
  chipPowerUp : t.chipPowerUp = s.chipPowerUp
  eventSteps : t.eventSteps = s.eventSteps

theorem State.SamePorts.refl (s : State) : s.SamePorts s := ⟨rfl, rfl, rfl, rfl, rfl, rfl⟩
theorem State.SamePorts.trans {s t u : State} (h : s.SamePorts t) (g : t.SamePorts u) : s.SamePorts u :=
  ⟨g.rst.trans h.rst, g.cfgAddr.trans h.cfgAddr, g.req.trans h.req, g.wireIn.trans h.wireIn, g.chipPowerUp.trans h.chipPowerUp,
    g.eventSteps.trans h.eventSteps⟩

theorem State.abort_samePorts (p : Prim) (i info : Nat) (s : State) : s.SamePorts (s.abort p i info) := by
  obtain ⟨x0, x1, x2, x3, x4, x5, h⟩ := State.spoil_spec (primBuf p) i (primLen p - i) s
  unfold State.abort
  constructor <;> cases primCaptures p <;> simp [h]

theorem State.tick_samePorts (s : State) : s.SamePorts s.tick.2 := by
  rcases State.tick_cases s with h | ⟨op, k, -, h⟩ | ⟨op, k, -, h⟩ | ⟨op, k, -, h⟩ | ⟨op, k, p, -, -, h⟩ |
    ⟨op, k, i, p, -, -, ⟨r, h⟩ | h | ⟨info, h⟩ | ⟨info, h⟩⟩ | ⟨op, k, p, -, -, h⟩ <;> rw [h]
  · exact .refl s
  · constructor <;> simp [State.constructInit]
  · constructor <;> simp [State.sampleDrdy]
  · obtain ⟨d, o, e⟩ := State.deliver_spec op s; rw [e]; constructor <;> simp
  · constructor <;> simp [State.openFrame]
  · constructor <;> simp only [State.exchanged] <;> split <;> simp
  · constructor <;> simp
  · exact State.SamePorts.trans (by constructor <;> simp) (State.abort_samePorts p i info _)
  · exact State.SamePorts.trans (by constructor <;> simp) (State.abort_samePorts p i info _)
  · constructor <;> simp [State.closeFrame]

/-- No run of events writes an input port. -/
theorem State.run_samePorts (f : Nat) (s : State) : s.SamePorts (s.run f) :=
  State.run_keeps (P := s.SamePorts) (fun t h => h.trans (State.tick_samePorts t)) f (.refl s)

end Sys2Proof.Machine
end

