-- ==== Sys2Proof/Laws/Frame.lean ====
section
/-! SUPPORT. What the sequencer's events add up to: a transaction whose exchanges the transport completes is one frame at the
chip (40_primitives.md R120, R130), said once for all four primitives, at either level of chip-select before it. -/

namespace Sys2Proof.Machine

/-- The state after a whole transaction of primitive `p`, before the operation goes on: the direct form of 40_primitives.md R122,
R124, R126, R128. -/
def State.framed (p : Prim) (s : State) : State :=
  match p with
  | .fastcmd op =>
    let c := fastByte s.addrbits op
    let f := chipFrame s.cs [c] s.draws s.peer
    { s with buf10 := c, cs := true, xfers := s.xfers.drop 1, peer := f.peer, draws := f.draws
             trace := s.trace ++ frameEvents s.cs [c] [s.heard 0 (f.ins.getD 0 0#8)] }
  | .wreg8 ra v =>
    let c := regByte s.addrbits ra xtWrite
    let f := chipFrame s.cs [c, v] s.draws s.peer
    { s with buf20 := c, buf21 := v, cs := true, xfers := s.xfers.drop 2, peer := f.peer, draws := f.draws
             trace := s.trace ++ frameEvents s.cs [c, v] [s.heard 0 (f.ins.getD 0 0#8), s.heard 1 (f.ins.getD 1 0#8)] }
  | .rreg8 ra =>
    let outs := [regByte s.addrbits ra xtRead, s.buf21]
    let f := chipFrame s.cs outs s.draws s.peer
    let x := s.heard 0 (f.ins.getD 0 0#8)
    let v := s.heard 1 (f.ins.getD 1 0#8)
    { s with buf20 := x, buf21 := v, t8 := v, cs := true, xfers := s.xfers.drop 2, peer := f.peer, draws := f.draws
             trace := s.trace ++ frameEvents s.cs outs [x, v] }
  | .rreg16 ra =>
    let outs := [regByte s.addrbits ra xtRead, s.buf31, s.buf32]
    let f := chipFrame s.cs outs s.draws s.peer
    let x := s.heard 0 (f.ins.getD 0 0#8)
    let hi := s.heard 1 (f.ins.getD 1 0#8)
    let lo := s.heard 2 (f.ins.getD 2 0#8)
    { s with buf30 := x, buf31 := hi, buf32 := lo, t16 := joinBytes hi lo, cs := true, xfers := s.xfers.drop 3, peer := f.peer
             draws := f.draws, trace := s.trace ++ frameEvents s.cs outs [x, hi, lo] }

/-- A transport that completes `n + 1` exchanges: its first answer completes one, the rest `n`. -/
theorem completes_succ {n : Nat} {xs : List Xfer} (h : n + 1 ≤ xs.length ∧ ∀ x ∈ xs.take (n + 1), x.completes = true) :
    ∃ x ys, xs = x :: ys ∧ x.completes = true ∧ n ≤ ys.length ∧ ∀ y ∈ ys.take n, y.completes = true := by
  cases xs with
  | nil => simp at h
  | cons x ys =>
    obtain ⟨h1, h2⟩ := h
    simp only [List.take_succ_cons, List.mem_cons, forall_eq_or_imp] at h2
    exact ⟨x, ys, rfl, h2.1, by simpa using h1, h2.2⟩

/-- A transport that completes some exchanges completes fewer. -/
theorem State.transportCompletes.mono {n m : Nat} {s : State} (h : s.transportCompletes n) (hm : m ≤ n) : s.transportCompletes m :=
  ⟨hm.trans h.1, fun x hx => h.2 x (List.mem_of_mem_take (by rwa [List.take_take, Nat.min_eq_left hm]))⟩

/-- After `k` exchanges a transport that completes `n` completes the `n - k` left. -/
theorem State.transportCompletes.drop {n k : Nat} {s t : State} (h : s.transportCompletes n) (ht : t.xfers = s.xfers.drop k) :
    t.transportCompletes (n - k) := by
  refine ⟨by rw [ht, List.length_drop]; have := h.1; omega, fun x hx => h.2 x ?_⟩
  rw [ht, List.take_drop] at hx
  have := List.mem_of_mem_drop hx
  by_cases hk : k ≤ n
  · rwa [show k + (n - k) = n from by omega] at this
  · exfalso
    rw [show k + (n - k) = k from by omega] at hx
    simp at hx

/-- An exchange that the transport completes (60_exceptions.md R203 for a wrong byte). -/
theorem State.exchange_completes {x : Xfer} (hx : x.completes = true) {op : Op} {k : Nat} {p : Prim} {i : Nat} {s : State}
    {xs : List Xfer} (h : s.xfers = x :: xs) :
    s.exchange op k p i = (true, s.convTick.answered.exchanged op k p i
      (x.heard (s.convTick.answered.received (s.convTick.answered.bufByte (primBuf p) i)))) := by
  cases x <;> simp_all [State.exchange, State.nextAnswer, Xfer.completes, Xfer.heard]

/-- A transaction that the transport completes is one frame at the chip, after which the operation goes on. -/
theorem State.run_frame {op : Op} {k : Nat} {p : Prim} {s : State} (f : Nat) (hseq : s.seq = .pos op k .assert)
    (hp : s.prim op k = some p) (hx : s.transportCompletes (primLen p)) :
    s.run (primLen p + 2 + f) = ((s.framed p).goto (afterStep op k)).run f := by
  unfold State.prim at hp
  have h3 : 3 * Config.drawStride = Config.drawStride + Config.drawStride + Config.drawStride := by omega
  cases p with
  | fastcmd o =>
    obtain ⟨a, x1, h1, ha, -⟩ := completes_succ hx
    rw [show primLen (.fastcmd o) + 2 + f = f + 1 + 1 + 1 from by simp [primLen]; omega]
    cases hcs : s.cs <;>
    simp [State.run, State.tick, State.prim, hseq, hp, State.openFrame, State.load, State.driveCs, hcs, State.exchange_completes ha,
      h1, State.exchanged, primBuf, State.bufByte, primCaptures, afterByte, primLen, State.closeFrame, State.finish] <;>
    simp [State.emit, State.goto, State.drawn, State.framed, chipFrame, chipBytes, frameEvents, fallFrom, State.heard, two_mul,
      ← Nat.add_assoc, h3, h1, hcs]
  | wreg8 ra v =>
    obtain ⟨a, x1, h1, ha, h1'⟩ := completes_succ hx
    obtain ⟨b, x2, rfl, hb, -⟩ := completes_succ h1'
    rw [show primLen (.wreg8 ra v) + 2 + f = f + 1 + 1 + 1 + 1 from by simp [primLen]; omega]
    cases hcs : s.cs <;>
    simp [State.run, State.tick, State.prim, hseq, hp, State.openFrame, State.load, State.driveCs, hcs, State.exchange_completes ha,
      State.exchange_completes hb, h1, State.exchanged, primBuf, State.bufByte, primCaptures, afterByte, primLen, State.closeFrame, State.finish] <;>
    simp [State.emit, State.goto, State.drawn, State.framed, chipFrame, chipBytes, frameEvents, fallFrom, State.heard, two_mul,
      ← Nat.add_assoc, h3, h1, hcs]
  | rreg8 ra =>
    obtain ⟨a, x1, h1, ha, h1'⟩ := completes_succ hx
    obtain ⟨b, x2, rfl, hb, -⟩ := completes_succ h1'
    rw [show primLen (.rreg8 ra) + 2 + f = f + 1 + 1 + 1 + 1 from by simp [primLen]; omega]
    cases hcs : s.cs <;>
    simp [State.run, State.tick, State.prim, hseq, hp, State.openFrame, State.load, State.driveCs, hcs, State.exchange_completes ha,
      State.exchange_completes hb, h1, State.exchanged, primBuf, State.bufByte, primCaptures, afterByte, primLen, State.closeFrame, State.finish,
      State.setBufByte] <;>
    simp [State.goto, State.framed, chipFrame, chipBytes, frameEvents, fallFrom, State.heard, two_mul,
      ← Nat.add_assoc, h3, h1, hcs]
  | rreg16 ra =>
    obtain ⟨a, x1, h1, ha, h1'⟩ := completes_succ hx
    obtain ⟨b, x2, rfl, hb, h2'⟩ := completes_succ h1'
    obtain ⟨c, x3, rfl, hc, -⟩ := completes_succ h2'
    rw [show primLen (.rreg16 ra) + 2 + f = f + 1 + 1 + 1 + 1 + 1 from by simp [primLen]; omega]
    cases hcs : s.cs <;>
    simp [State.run, State.tick, State.prim, hseq, hp, State.openFrame, State.load, State.driveCs, hcs, State.exchange_completes ha,
      State.exchange_completes hb, State.exchange_completes hc, h1, State.exchanged, primBuf, State.bufByte, primCaptures, afterByte, primLen, State.closeFrame, State.finish,
      State.setBufByte] <;>
    simp [State.goto, State.framed, chipFrame, chipBytes, frameEvents, fallFrom, State.heard, two_mul,
      ← Nat.add_assoc, h3, h1, hcs]

/-- An operation whose response is due delivers it and is over (00_scope.md R5). -/
theorem State.run_respond {op : Op} {k : Nat} {s : State} (f : Nat) : (s.goto (.pos op k .respond)).run (f + 1) = s.deliver op := by
  have h : (s.goto (.pos op k .respond)).deliver op = s.deliver op := by cases op <;> rfl
  have hi : (s.deliver op).seq = .idle := by cases op <;> rfl
  rw [State.run_tick (t := s.deliver op) (by simp [State.tick, h]), State.run_idle _ hi]

/-! What a transaction leaves, with the bytes received named. -/

theorem State.framed_fastcmd (op : FastOp) (s : State) :
    ∃ x p n, chipFrame s.cs [fastByte s.addrbits op] s.draws s.peer = ⟨[x], p, n⟩ ∧
      s.framed (.fastcmd op) = { s with
        buf10 := fastByte s.addrbits op, cs := true, xfers := s.xfers.drop 1, peer := p, draws := n
        trace := s.trace ++ (fallFrom s.cs ++ [.byte (fastByte s.addrbits op) (s.heard 0 x), .csRise]) } := by
  refine ⟨_, _, _, rfl, ?_⟩
  simp [State.framed, frameEvents, chipFrame, chipBytes]

theorem State.framed_wreg8 (ra : RegAddr) (v : Byte) (s : State) :
    ∃ x y p n, chipFrame s.cs [regByte s.addrbits ra xtWrite, v] s.draws s.peer = ⟨[x, y], p, n⟩ ∧
      s.framed (.wreg8 ra v) = { s with
        buf20 := regByte s.addrbits ra xtWrite, buf21 := v, cs := true, xfers := s.xfers.drop 2, peer := p, draws := n
        trace := s.trace ++
          (fallFrom s.cs ++ [.byte (regByte s.addrbits ra xtWrite) (s.heard 0 x), .byte v (s.heard 1 y), .csRise]) } := by
  refine ⟨_, _, _, _, rfl, ?_⟩
  simp [State.framed, frameEvents, chipFrame, chipBytes]

theorem State.framed_rreg8 (ra : RegAddr) (s : State) :
    ∃ x y p n, chipFrame s.cs [regByte s.addrbits ra xtRead, s.buf21] s.draws s.peer = ⟨[x, y], p, n⟩ ∧
      s.framed (.rreg8 ra) = { s with
        buf20 := s.heard 0 x, buf21 := s.heard 1 y, t8 := s.heard 1 y, cs := true, xfers := s.xfers.drop 2, peer := p, draws := n
        trace := s.trace ++
          (fallFrom s.cs ++ [.byte (regByte s.addrbits ra xtRead) (s.heard 0 x), .byte s.buf21 (s.heard 1 y), .csRise]) } := by
  refine ⟨_, _, _, _, rfl, ?_⟩
  simp [State.framed, frameEvents, chipFrame, chipBytes]

theorem State.framed_rreg16 (ra : RegAddr) (s : State) :
    ∃ x y z p n, chipFrame s.cs [regByte s.addrbits ra xtRead, s.buf31, s.buf32] s.draws s.peer = ⟨[x, y, z], p, n⟩ ∧
      s.framed (.rreg16 ra) = { s with
        buf30 := s.heard 0 x, buf31 := s.heard 1 y, buf32 := s.heard 2 z, t16 := s.heard 1 y ++ s.heard 2 z, cs := true
        xfers := s.xfers.drop 3, peer := p, draws := n
        trace := s.trace ++ (fallFrom s.cs ++ [.byte (regByte s.addrbits ra xtRead) (s.heard 0 x), .byte s.buf31 (s.heard 1 y),
          .byte s.buf32 (s.heard 2 z), .csRise]) } := by
  refine ⟨_, _, _, _, _, rfl, ?_⟩
  simp [State.framed, frameEvents, chipFrame, chipBytes, joinBytes]

/-! What a transaction leaves alone, and how it commutes with the sequencer's moves and an operation's end. -/

@[simp] theorem State.framed_cs (p : Prim) (s : State) : (s.framed p).cs = true := by cases p <;> rfl
@[simp] theorem State.framed_addrbits (p : Prim) (s : State) : (s.framed p).addrbits = s.addrbits := by cases p <;> rfl
theorem State.framed_xfers (p : Prim) (s : State) : (s.framed p).xfers = s.xfers.drop (primLen p) := by cases p <;> rfl
theorem State.framed_goto (p : Prim) (q : SeqPos) (s : State) : (s.goto q).framed p = (s.framed p).goto q := by cases p <;> rfl
theorem State.framed_respond (p : Prim) (st : BitVec 2) (v : Word) (s : State) :
    (s.respond st v).framed p = (s.framed p).respond st v := by cases p <;> rfl
theorem State.goto_goto (q r : SeqPos) (s : State) : (s.goto q).goto r = s.goto r := rfl

/-- RESET's three transactions, which are also construction's last three steps (41_public_ops.md R140, R142). -/
theorem State.run_reset_frames {op : Op} {k : Nat} {s : State} (hop : (op = .reset ∧ k = 0) ∨ (op = .construct ∧ k = 1)) (f : Nat)
    (hseq : s.seq = .pos op k .assert) (hx : s.transportCompletes 5) :
    s.run (12 + f) =
      (((s.framed (.fastcmd opReset)).framed (.rreg8 raIrq)).framed
        (.wreg8 raIrq (irqMasked ((s.framed (.fastcmd opReset)).framed (.rreg8 raIrq)).t8))).respond statusOk 0#32 := by
  rw [show 12 + f = primLen (.fastcmd opReset) + 2 + (9 + f) from by simp [primLen]; omega,
    State.run_frame (op := op) (k := k) (p := .fastcmd opReset) (9 + f) hseq
      (by rcases hop with ⟨rfl, rfl⟩ | ⟨rfl, rfl⟩ <;> rfl) (hx.mono (by decide))]
  generalize hs1 : s.framed (.fastcmd opReset) = s1
  have x1 : s1.transportCompletes 4 := hx.drop (k := 1) (by rw [← hs1, State.framed_xfers]; rfl)
  have a1 : afterStep op k = .pos op (k + 1) .assert := by rcases hop with ⟨rfl, rfl⟩ | ⟨rfl, rfl⟩ <;> rfl
  rw [a1, show 9 + f = primLen (.rreg8 raIrq) + 2 + (5 + f) from by simp [primLen]; omega,
    State.run_frame (op := op) (k := k + 1) (p := .rreg8 raIrq)
      (s := s1.goto (.pos op (k + 1) .assert)) (5 + f) rfl
      (by rcases hop with ⟨rfl, rfl⟩ | ⟨rfl, rfl⟩ <;> rfl) (x1.mono (by decide)), State.framed_goto, State.goto_goto]
  generalize hs2 : s1.framed (.rreg8 raIrq) = s2
  have x2 : s2.transportCompletes 2 := x1.drop (k := 2) (by rw [← hs2, State.framed_xfers]; rfl)
  have a2 : afterStep op (k + 1) = .pos op (k + 2) .assert := by rcases hop with ⟨rfl, rfl⟩ | ⟨rfl, rfl⟩ <;> rfl
  rw [a2, show 5 + f = primLen (.wreg8 raIrq (irqMasked s2.t8)) + 2 + (f + 1) from by simp [primLen]; omega,
    State.run_frame (op := op) (k := k + 2) (p := .wreg8 raIrq (irqMasked s2.t8))
      (s := s2.goto (.pos op (k + 2) .assert)) (f + 1) rfl
      (by rcases hop with ⟨rfl, rfl⟩ | ⟨rfl, rfl⟩ <;> rfl) x2, State.framed_goto, State.goto_goto]
  have a3 : afterStep op (k + 2) = .pos op (k + 2) .respond := by rcases hop with ⟨rfl, rfl⟩ | ⟨rfl, rfl⟩ <;> rfl
  rw [a3, State.run_respond]
  rcases hop with ⟨rfl, rfl⟩ | ⟨rfl, rfl⟩ <;> rfl

end Sys2Proof.Machine
end

