-- ==== Sys2Proof/Laws/PerInstr.lean ====
section
/-! SUPPORT. One family of statements made per instruction: its encoding is a word of its own row of the opcode table. -/

namespace Sys2Proof.Laws.EncodingMatchesRow

/-- The CMD8 row of a wire command, the REQ18 row of a request: pattern and mask (spec/opcode_table.json). -/
def cmd8Row (m : String) : Option (BitVec 8 × BitVec 8) :=
  ((cmd8Rows.find? (fun r => r.mnemonic == m))).map fun r => (BitVec.ofNat 8 r.pattern, BitVec.ofNat 8 r.mask)

def req18Row (m : String) : Option (BitVec 18 × BitVec 18) :=
  ((req18Rows.find? (fun r => r.mnemonic == m))).map fun r => (BitVec.ofNat 18 r.pattern, BitVec.ofNat 18 r.mask)

/-- Where a well-formed instruction has an encoding, the opcode table has a row of its mnemonic and the word matches it. -/
def Statement (i : Instr) : Prop :=
  i.wellFormed = true →
    (∀ c, i.cmd8? = some c → ∃ r, cmd8Row i.mnemonic = some r ∧ c &&& r.2 = r.1) ∧
    (∀ w, i.req18? = some w → ∃ r, req18Row i.mnemonic = some r ∧ w &&& r.2 = r.1)

/-- Under a mask without the low 14 bits a request word is its privilege bit and its `opsel`. -/
theorem req18_masked (p : BitVec 1) (o : BitVec 3) (a : BitVec 6) (d : Byte) (m : BitVec 4) :
    encodeReq18 p o a d &&& (m ++ 0#14) = ((p ++ o) &&& m) ++ 0#14 := by
  apply BitVec.eq_of_getLsbD_eq
  intro i hi
  simp only [encodeReq18, BitVec.getLsbD_and, BitVec.getLsbD_append, BitVec.getLsbD_zero]
  by_cases h : i < 14
  · simp [h]
  · have h1 : ¬ i < 8 := by omega
    have h2 : ¬ i - 8 < 6 := by omega
    have h3 : i - 8 - 6 = i - 14 := by omega
    simp [h, h1, h2, h3]

theorem of_req {i : Instr} {p : BitVec 1} {o : BitVec 3} {a : BitVec 6} {d : Byte} {m : BitVec 4} (h8 : i.cmd8? = none)
    (h18 : i.req18? = some (encodeReq18 p o a d)) (hr : req18Row i.mnemonic = some (((p ++ o) &&& m) ++ 0#14, m ++ 0#14)) :
    Statement i := by
  intro _
  refine ⟨fun c hc => (by rw [h8] at hc; cases hc), fun w hw => ?_⟩
  rw [h18] at hw; cases hw
  exact ⟨_, hr, req18_masked p o a d m⟩

theorem of_cmd {i : Instr} {c : Byte} {r : BitVec 8 × BitVec 8} (h8 : i.cmd8? = some c) (h18 : i.req18? = none)
    (hr : cmd8Row i.mnemonic = some r) (h : i.wellFormed = true → c &&& r.2 = r.1) : Statement i := by
  intro hw
  refine ⟨fun c' hc => ?_, fun w hw => (by rw [h18] at hw; cases hw)⟩
  rw [h8] at hc; cases hc
  exact ⟨_, hr, h hw⟩

theorem of_none {i : Instr} (h8 : i.cmd8? = none) (h18 : i.req18? = none) : Statement i :=
  fun _ => ⟨fun c hc => (by rw [h8] at hc; cases hc), fun w hw => (by rw [h18] at hw; cases hw)⟩

theorem fastStart (a : DevAddr) : Statement (.fastStart a) :=
  of_cmd (r := (0x28#8, 0x3F#8)) rfl rfl rfl (fun _ => by revert a; decide)
theorem fastReset (a : DevAddr) : Statement (.fastReset a) :=
  of_cmd (r := (0x38#8, 0x3F#8)) rfl rfl rfl (fun _ => by revert a; decide)
theorem fastOther (a : DevAddr) (op : FastOp) : Statement (.fastOther a op) :=
  of_cmd (r := (0x00#8, 0x03#8)) rfl rfl rfl (by revert a op; decide)
theorem xt01 (a : DevAddr) (ra : RegAddr) : Statement (.xt01 a ra) :=
  of_cmd (r := (0x01#8, 0x03#8)) rfl rfl rfl (fun _ => by revert a ra; decide)
theorem incw (a : DevAddr) (ra : RegAddr) : Statement (.incw a ra) :=
  of_cmd (r := (0x02#8, 0x03#8)) rfl rfl rfl (fun _ => by revert a ra; decide)
theorem incr (a : DevAddr) (ra : RegAddr) : Statement (.incr a ra) :=
  of_cmd (r := (0x03#8, 0x03#8)) rfl rfl rfl (fun _ => by revert a ra; decide)
theorem refused (sel : BitVec 2) (a : BitVec 6) (d : Byte) : Statement (.refused sel a d) := by
  have h : ((0#1 ++ (0#1 ++ sel)) &&& 0b1100#4) ++ 0#14 = 0#18 := by revert sel; decide
  refine of_req (m := 0b1100#4) rfl rfl ?_
  rw [h]; rfl
theorem fastcmd (op : FastOp) : Statement (.fastcmd op) := of_req (m := 0b1111#4) rfl rfl rfl
theorem wreg8 (ra : RegAddr) (v : Byte) : Statement (.wreg8 ra v) := of_req (m := 0b1111#4) rfl rfl rfl
theorem rreg8 (ra : RegAddr) : Statement (.rreg8 ra) := of_req (m := 0b1111#4) rfl rfl rfl
theorem rreg16 (ra : RegAddr) : Statement (.rreg16 ra) := of_req (m := 0b1111#4) rfl rfl rfl
theorem reset : Statement .reset := of_req (m := 0b0111#4) rfl rfl rfl
theorem convert (ch : BitVec 4) : Statement (.convert ch) := of_req (m := 0b0111#4) rfl rfl rfl
theorem reads16 : Statement .reads16 := of_req (m := 0b0111#4) rfl rfl rfl
theorem drdy : Statement .drdy := of_req (m := 0b0111#4) rfl rfl rfl
theorem construct (a : DevAddr) : Statement (.construct a) := of_none rfl rfl
theorem sext16 (raw : Half) : Statement (.sext16 raw) := of_none rfl rfl

end Sys2Proof.Laws.EncodingMatchesRow
end

