-- ==== Sys2Proof/Laws/Step.lean ====
section
/-! SUPPORT. What one step can do, said once: which turn it takes, and what it goes on with in each grain of a step (log 1). -/

namespace Sys2Proof.Machine

/-- What the step does next, from what stands at the ports (10_state.md R34, 60_exceptions.md R210; log 2). -/
theorem State.turn_cases (s : State) :
    (s.chipPowerUp = true ∧ s.turn = .chipPowerUp) ∨
    (s.chipPowerUp = false ∧ s.rst = true ∧ s.turn = .instr (.construct s.cfgAddr)) ∨
    (s.chipPowerUp = false ∧ s.rst = false ∧ s.seq ≠ .idle ∧ s.turn = .resume) ∨
    (s.chipPowerUp = false ∧ s.rst = false ∧ s.seq = .idle ∧
      ((∃ c, s.wireIn = some c ∧ s.peer.pmode = .awaitCmd ∧ s.turn = .instr (decodeCmd8 c)) ∨
       (∃ c, s.wireIn = some c ∧ s.peer.pmode ≠ .awaitCmd ∧ s.turn = .wireData c) ∨
       (∃ w, s.wireIn = none ∧ s.req = some w ∧ s.busy = false ∧ s.turn = .instr (decodeReq18 w)) ∨
       (s.wireIn = none ∧ (s.req = none ∨ s.busy = true) ∧ s.turn = .quiet))) := by
  cases hp : s.chipPowerUp
  · cases hr : s.rst
    · by_cases hs : s.seq = .idle
      · cases hw : s.wireIn
        · cases hq : s.req
          · simp [State.turn, hp, hr, hs, hw, hq]
          · cases hb : s.busy <;> simp [State.turn, hp, hr, hs, hw, hq, hb]
        · by_cases hm : s.peer.pmode = .awaitCmd <;> simp [State.turn, hp, hr, hs, hw, hm]
      · simp [State.turn, hp, hr, hs]
    · simp [State.turn, hp, hr]
  · simp [State.turn, hp]

/-- Taking an instruction from its port clears that port and changes nothing else (log 2). -/
theorem State.taken_cases (s : State) :
    s.taken = { s with rst := false } ∨ s.taken = { s with wireIn := none } ∨ s.taken = { s with req := none } := by
  unfold State.taken
  split
  · exact .inl rfl
  · split
    · exact .inr (.inl rfl)
    · exact .inr (.inr rfl)

/-- The acceptance of an operation (10_state.md R29, R30, R31): BUSY, no valid response, at its first position, argument latches
written; construction also takes its address. -/
theorem State.accepted_spec {i : Instr} {s u : State} (h : s.accepted i = some u) :
    ∃ op ph a d c, u = { s.accept op ph a d with cfgAddr := c } ∧ (SeqPos.pos op 0 ph).legal = true ∧
      (SeqPos.pos op 0 ph).insideFrame = false ∧
      (c = s.cfgAddr ∨ i = .construct c) := by
  cases i <;> simp only [State.accepted, Option.some.injEq, reduceCtorEq] at h <;> subst h <;>
    first
    | exact ⟨_, _, _, _, _, rfl, rfl, rfl, .inl rfl⟩
    | exact ⟨_, _, _, _, _, rfl, rfl, rfl, .inr rfl⟩

/-- What every event keeps, an operation that goes on keeps, in either grain of a step. -/
theorem State.resumed_keeps {P : State → Prop} (h : ∀ s, P s → P s.tick.2) {s : State} (hs : P s) : P s.resumed := by
  unfold State.resumed
  split
  · exact h s hs
  · exact State.run_keeps h _ hs

end Sys2Proof.Machine
end

