-- ==== Sys2Proof/Tests/Slice0.lean ====
section
/-! SUPPORT. Tests: expected values are those of spec/95_test_vectors.md at the section named. `witness_` theorems show a concrete
state and operands that meet the hypotheses of the obligation they name. -/

namespace Sys2Proof.Tests

open Sys2Proof Sys2Proof.Machine

/-! ## WellFormed: each check refuses an ill-formed term -/

theorem test_wellformed_fast_start_is_not_other : (Instr.fastOther 1#2 0x28#6).wellFormed = false := by decide
theorem test_wellformed_fast_reset_is_not_other : (Instr.fastOther 1#2 0x38#6).wellFormed = false := by decide
theorem test_wellformed_format_r_is_not_fast : (Instr.fastOther 1#2 0x2A#6).wellFormed = false := by decide
theorem test_wellformed_fast_other : (Instr.fastOther 1#2 0x2C#6).wellFormed = true := by decide

/-! ## Decode: words written out in 95_test_vectors.md 3.2 and 3.11 -/

theorem test_decode_fast_start : decode [0b01_101000#8] = .ok (.fastStart 1#2) := by decide
theorem test_decode_fast_reset : decode [0b01_111000#8] = .ok (.fastReset 1#2) := by decide
theorem test_decode_fast_other : decode [0b01_101100#8] = .ok (.fastOther 1#2 0b101100#6) := by decide
theorem test_decode_xt01 : decode [0b01_0101_01#8] = .ok (.xt01 1#2 5#4) := by decide
theorem test_decode_incw : decode [0b01_0110_10#8] = .ok (.incw 1#2 6#4) := by decide
theorem test_decode_incr : decode [0b01_0101_11#8] = .ok (.incr 1#2 5#4) := by decide
theorem test_decode_refused : decodeTableWord 24 0b0_010_000101_00000000 = some (.refused 2#2 5#6 0#8) := by decide
theorem test_decode_fastcmd : decodeTableWord 24 0b1_000_101000_00000000 = some (.fastcmd 0x28#6) := by decide
theorem test_decode_wreg8 : decodeTableWord 24 0b1_001_000101_01110010 = some (.wreg8 5#4 0x72#8) := by decide
theorem test_decode_rreg8_drops_high_address : decodeTableWord 24 0b1_010_010101_00000000 = some (.rreg8 5#4) := by decide
theorem test_decode_rreg16 : decodeTableWord 24 0b1_011_000000_00000000 = some (.rreg16 0#4) := by decide
theorem test_decode_reset_ignores_unused : decodeTableWord 24 0b0_100_111111_11111111 = some .reset := by decide
theorem test_decode_convert_drops_high_channel : decodeTableWord 24 0b0_101_111111_00000000 = some (.convert 15#4) := by decide
theorem test_decode_reads16 : decodeTableWord 24 0b0_110_000000_00000000 = some .reads16 := by decide
theorem test_decode_drdy_any_privilege : decodeTableWord 24 0b1_111_000000_00000000 = some .drdy := by decide
theorem test_decode_empty : decode [] = .error (.badLength 0) := by decide
theorem test_decode_high_bits : decode [0#8, 0#8, 4#8] = .error .badHighBits := by decide

/-- 30_encoding.md R104, 95_test_vectors.md 3.2: `FASTCMD 0x28 !`, `CONVERT 16`, `WREG8 6, 0x28 !`. -/
theorem test_assemble : assemble true (.fastcmd 0x28) = 0x22800#18 ∧ assemble false (.convert 16) = 0x15000#18 ∧
    assemble true (.wreg8 6 0x28) = 0x24628#18 := by decide

/-! ## One step each -/

/-- The chip of 95_test_vectors.md 3.11, a result ready. -/
def chip : Peer where
  sa := 1#2
  adcdata := 0xFF38#16
  irq := 0x72#8
  mux := 0x01#8
  pmode := .deselected
  ptr := 0#4
  ph := 0#1
  moved := false
  unknown := false
  convst := .resultReady
  lineLow := true

/-- The block at the end of 95_test_vectors.md P1, beside that chip, with a transport that completes five exchanges. -/
def block : State where
  addrbits := 0x40#8
  buf10 := 0x78#8
  buf20 := 0x56#8
  buf21 := 0x72#8
  buf30 := 0#8
  buf31 := 0#8
  buf32 := 0#8
  t8 := 0x73#8
  t16 := 0#16
  cs := true
  drdyPullup := true
  busy := false
  seq := .idle
  rspValid := true
  rspStatus := 0#2
  rspData := 0#32
  rspFaultInfo := 0
  faulted := false
  argA := 0#6
  argD := 0#8
  sampled := false
  sextOut := 0#32
  eventSteps := false
  rst := false
  cfgAddr := 1#2
  req := none
  wireIn := none
  chipPowerUp := false
  xfers := [.done, .done, .done, .done, .done]
  peer := chip
  trace := []
  draws := 8

/-- The block with chip-select low and the chip in mode `m`. -/
def selected (m : PMode) : State := { block with cs := false, peer := { chip with pmode := m } }

/-- The block with its chip in a data phase at register `r`, byte `h`. -/
def inData (m : PMode) (r : RegAddr) (h : BitVec 1) : State :=
  { block with cs := false, peer := { chip with pmode := m, ptr := r, ph := h } }

/-- The state a step goes on in. -/
def after (o : Host.Outcome State Fault Refusal) : Option State :=
  match o with
  | .next t => some t
  | .fault _ => none
  | .refused _ => none

/-- The bytes the block sent, in order. -/
def sent (t : List WireEvent) : List Byte :=
  t.filterMap fun e =>
    match e with
    | .byte o _ => some o
    | .csFall => none
    | .csRise => none
    | .drdySample _ => none

/-- 3.3, `A` = 1. -/
theorem test_fastcmd : (after (exec (.fastcmd 0x28#6) block)).map (fun t => (sent t.trace, t.buf10, t.rspStatus)) =
    some ([0x68#8], 0x68#8, 0#2) := by decide
/-- 3.4, `A` = 1. -/
theorem test_wreg8 : (after (exec (.wreg8 6#4 0x28#8) block)).map (fun t => (sent t.trace, t.buf20, t.buf21, t.peer.mux)) =
    some ([0x5A#8, 0x28#8], 0x5A#8, 0x28#8, 0x28#8) := by decide
/-- P5: the value written is read back; the placeholder is the stale data byte. -/
theorem test_rreg8 : (after (exec (.rreg8 6#4) block)).map (fun t => (sent t.trace, t.t8, t.buf21, t.rspData)) =
    some ([0x5B#8, 0x72#8], 0x01#8, 0x01#8, 0x01#32) := by decide
/-- 3.6: high byte first, zero-extended. -/
theorem test_rreg16 : (after (exec (.rreg16 0#4) block)).map (fun t => (sent t.trace, t.t16, t.rspData)) =
    some ([0x43#8, 0#8, 0#8], 0xFF38#16, 0x0000FF38#32) := by decide
/-- P2: the same sample, sign-extended. -/
theorem test_reads16 : (after (exec .reads16 block)).map (fun t => (t.t16, t.rspData)) =
    some (0xFF38#16, 0xFFFFFF38#32) := by decide
/-- 3.8: the command bytes and the stale placeholder. -/
theorem test_reset : (after (exec .reset block)).map (fun t => ((sent t.trace).take 4, t.buf10, t.peer.convst)) =
    some ([0x78#8, 0x57#8, 0x72#8, 0x56#8], 0x78#8, ConvSt.noResult) := by decide
/-- 3.9 and P2: channel 2. -/
theorem test_convert : (after (exec (.convert 2#4) block)).map (fun t => (sent t.trace, t.buf21, t.buf10)) =
    some ([0x5A#8, 0x28#8, 0x68#8], 0x28#8, 0x68#8) := by decide
/-- 3.10: a line driven low. -/
theorem test_drdy_low : (after (exec .drdy block)).map (fun t => (t.trace, t.rspData)) =
    some ([.drdySample false], 1#32) := by decide
/-- 3.10: an undriven line reads 1 through the pull-up. -/
theorem test_drdy_pulled_up : (after (exec .drdy { block with peer := { chip with lineLow := false } })).map
    (fun t => (t.trace, t.rspData)) = some ([.drdySample true], 0#32) := by decide
/-- P1 and P6: construction at address 3. -/
theorem test_construct : (after (exec (.construct 3#2) block)).map (fun t => (t.addrbits, (sent t.trace).take 4, t.buf10)) =
    some (0xC0#8, [0xF8#8, 0xD7#8, 0#8, 0xD6#8], 0xF8#8) := by decide
/-- P5: refused, nothing on the wire. -/
theorem test_refused : (after (exec (.refused 2#2 5#6 0#8) block)).map (fun t => (t.trace, t.rspStatus, t.buf20, t.faulted)) =
    some ([], 2#2, 0x56#8, false) := by decide
/-- 3.7: the two corners. -/
theorem test_sext16 : (after (exec (.sext16 0x8000#16) block)).map (fun t => t.sextOut) = some 0xFFFF8000#32 ∧
    (after (exec (.sext16 0x7FFF#16) block)).map (fun t => t.sextOut) = some 0x00007FFF#32 := by decide
/-- 3.11. -/
theorem test_fast_start : (after (exec (.fastStart 1#2) (selected .awaitCmd))).map (fun t => (t.peer.convst, t.peer.pmode)) =
    some (ConvSt.converting, PMode.fastDone) := by decide
/-- 3.11: another device's byte is ignored. -/
theorem test_fast_start_elsewhere : (after (exec (.fastStart 0#2) (selected .awaitCmd))).map
    (fun t => (t.peer.convst, t.peer.pmode)) = some (ConvSt.resultReady, PMode.ignore) := by decide
/-- 3.11. -/
theorem test_fast_reset : (after (exec (.fastReset 1#2) (selected .awaitCmd))).map (fun t => (t.peer.convst, t.peer.lineLow)) =
    some (ConvSt.noResult, false) := by decide
/-- 3.11. -/
theorem test_fast_other : (after (exec (.fastOther 1#2 0x2C#6) (selected .awaitCmd))).map (fun t => t.peer.unknown) =
    some true := by decide
/-- 3.11. -/
theorem test_xt01 : (after (exec (.xt01 1#2 5#4) (selected .awaitCmd))).map (fun t => t.peer.unknown) = some true := by decide
/-- 3.11. -/
theorem test_incw : (after (exec (.incw 1#2 6#4) (selected .awaitCmd))).map (fun t => (t.peer.pmode, t.peer.ptr)) =
    some (PMode.writing, 6#4) := by decide
/-- 3.11. -/
theorem test_incr : (after (exec (.incr 1#2 0#4) (selected .awaitCmd))).map (fun t => (t.peer.pmode, t.peer.ptr, t.peer.ph)) =
    some (PMode.reading, 0#4, 0#1) := by decide
/-- 3.11: an access to an address without a register. -/
theorem test_undescribed : ((inData .writing 15#4 0#1).cross 0xAA#8).peer.unknown = true := by decide
/-- 3.12: CONVERT 2 faults at the first byte of its second frame. -/
theorem test_fault : (after (exec (.convert 2#4) { block with xfers := [.done, .done, .faultBefore 9] })).map
    (fun t => (t.rspStatus, t.rspFaultInfo, t.faulted)) = some (1#2, 9, true) := by decide

/-- 60_exceptions.md R203: the wrong byte is the result, and the operation ends OK. -/
theorem test_wrong_byte : (after (exec (.rreg8 6#4) { block with xfers := [.done, .wrongByte 0xAB#8] })).map
    (fun t => (t.t8, t.buf21, t.rspStatus)) = some (0xAB#8, 0xAB#8, 0#2) := by decide
/-- 60_exceptions.md R204: chip-select left low makes no fall. -/
theorem test_no_fall : (after (exec (.fastcmd 0x28#6) (selected .awaitCmd))).map
    (fun t => (t.trace.length, countFalls t.trace, t.cs)) = some (2, 0, true) := by decide

/-- 10_state.md R30, 00_scope.md R5: the positions of a FASTCMD requested at the port, one event a step. -/
theorem test_event_steps :
    let s : State := { block with eventSteps := true, req := some 0x22800#18 }
    [1, 2, 3, 4, 5].map (fun n => (after (steps n s)).map (fun t => (t.seq, t.cs, t.rspValid))) =
      [some (.pos .fastcmd 0 .assert, true, false), some (.pos .fastcmd 0 (.byte 0), false, false),
       some (.pos .fastcmd 0 .deassert, false, false), some (.pos .fastcmd 0 .respond, true, false),
       some (.idle, true, true)] := by decide
/-- 10_state.md R45, 43_slave_decode.md R170: a power-up inside a frame ends Unknown and leaves PMODE. -/
theorem test_power_up_in_frame :
    (after (step { selected .fastDone with chipPowerUp := true, peer := { chip with pmode := .fastDone, unknown := true } })).map
      (fun t => (t.peer.unknown, t.peer.convst, t.peer.lineLow, t.peer.pmode)) =
    some (false, ConvSt.noResult, false, PMode.fastDone) := by decide

/-! ## Witnesses of the obligations' hypotheses -/

theorem witness_DecodeEncodeAgree :
    (Instr.fastOther 3#2 0x3C#6).wellFormed = true ∧ encode (.fastOther 3#2 0x3C#6) = some [0xFC#8] ∧
    (Instr.wreg8 6#4 0x28#8).wellFormed = true ∧ encode (.wreg8 6#4 0x28#8) = some [0x28#8, 0x46#8, 0x02#8] ∧
    encode (.construct 3#2) = none := by decide

theorem block_done : block.transportDone 5 ∧ block.transportDone 3 ∧ block.transportDone 2 ∧ block.transportDone 1 := by
  refine ⟨?_, ?_, ?_, ?_⟩ <;> rfl

theorem block_ready : block.chipReady := by refine ⟨?_, rfl, rfl⟩; unfold State.hasAddress; decide

/-- The block with chip-select left low by a fault, before a transport that corrupts bytes. -/
def corrupted : State := { selected .reading with xfers := [.done, .wrongByte 1#8, .wrongByte 2#8, .done, .wrongByte 3#8] }

theorem corrupted_completes (n : Nat) (h : n ≤ 5) : corrupted.transportCompletes n := by
  refine ⟨h, fun x hx => ?_⟩
  have := List.mem_of_mem_take hx
  revert x
  decide +revert

theorem witness_FastcmdResult : corrupted.transportCompletes 1 ∧ corrupted.cs = false := ⟨corrupted_completes 1 (by decide), rfl⟩
theorem witness_Wreg8Result : corrupted.transportCompletes 2 := corrupted_completes 2 (by decide)
theorem witness_Rreg8Result : corrupted.transportCompletes 2 := corrupted_completes 2 (by decide)
theorem witness_Rreg16Result : corrupted.transportCompletes 3 := corrupted_completes 3 (by decide)
theorem witness_ResetResult : corrupted.transportCompletes 5 := corrupted_completes 5 (by decide)
theorem witness_ResetIsItsExpansion : corrupted.transportCompletes 5 := corrupted_completes 5 (by decide)
theorem witness_ConvertResult : corrupted.transportCompletes 3 := corrupted_completes 3 (by decide)
theorem witness_ConvertIsItsExpansion : corrupted.transportCompletes 3 := corrupted_completes 3 (by decide)
theorem witness_Reads16Result : corrupted.transportCompletes 3 := corrupted_completes 3 (by decide)
theorem witness_ConstructResult : corrupted.transportCompletes 5 ∧ corrupted.peer.sa = 1#2 := ⟨corrupted_completes 5 (by decide), rfl⟩
theorem witness_Sext16Bijection : (0x7FFF#16).toNat ≤ 0x7FFF ∧ 0x8000 ≤ (0x8000#16).toNat ∧
    sext16Int 0x7FFF#16 = 32767 ∧ sext16Int 0x8000#16 = -32768 := by decide

theorem witness_FastStartResult : (selected .awaitCmd).peer.pmode = .awaitCmd ∧ (selected .awaitCmd).peer.sa = 1#2 ∧
    (selected .awaitCmd).peer.unknown = false := by decide
theorem witness_FastResetResult : (selected .awaitCmd).peer.pmode = .awaitCmd ∧ (selected .awaitCmd).peer.sa = 1#2 := by decide
theorem witness_UnknownCommandResult : (selected .awaitCmd).peer.pmode = .awaitCmd ∧ (selected .awaitCmd).peer.sa = 1#2 := by decide
theorem witness_RegisterCommandResult : (selected .awaitCmd).peer.pmode = .awaitCmd ∧ (selected .awaitCmd).peer.sa = 1#2 ∧
    (selected .awaitCmd).peer.unknown = false := by decide
theorem witness_OtherDeviceCommandIgnored : (Instr.incr 0#2 0#4).wellFormed = true ∧ (Instr.incr 0#2 0#4).cmd8? = some 0x03#8 ∧
    (selected .awaitCmd).peer.pmode = .awaitCmd ∧ (0x03#8).extractLsb' 6 2 ≠ (selected .awaitCmd).peer.sa ∧
    (selected .awaitCmd).peer.unknown = false := by decide
theorem witness_WireCommandIsTheExchange : (Instr.fastOther 1#2 0x3C#6).wellFormed = true ∧
    (Instr.fastOther 1#2 0x3C#6).cmd8? = some 0x7C#8 := by decide

/-- Its three clauses: IRQ, MUX, and the addresses beside them. -/
theorem witness_WriteDataBytes : (∀ r ∈ [5#4, 6#4, 4#4, 7#4, 0#4, 15#4],
    (inData .writing r 0#1).peer.pmode = .writing ∧ (inData .writing r 0#1).peer.unknown = false ∧
    (inData .writing r 0#1).peer.ptr = r) := by decide
/-- Its clauses on bytes with a result ready: ADCDATA's two bytes, IRQ, MUX, and the addresses beside them. -/
theorem witness_ReadDataBytes : (∀ r ∈ [0#4, 5#4, 6#4, 1#4, 4#4, 7#4, 15#4], ∀ h ∈ [0#1, 1#1],
    (inData .reading r h).peer.pmode = .reading ∧ (inData .reading r h).peer.unknown = false ∧
    (inData .reading r h).peer.ptr = r ∧ (inData .reading r h).peer.ph = h ∧
    (inData .reading r h).peer.convst = .resultReady) := by decide

/-- Its clauses on ADCDATA with no result ready, and on the rise of chip-select after a read cut short and after a whole one. -/
theorem witness_ReadDataBytes_end : (∀ c ∈ [ConvSt.noResult, .converting], ∀ h ∈ [0#1, 1#1],
      let s : State := { inData .reading 0#4 h with peer := { chip with pmode := .reading, ph := h, convst := c } }
      s.peer.pmode = .reading ∧ s.peer.unknown = false ∧ s.peer.ptr = 0#4 ∧ s.peer.convst ≠ .resultReady ∧ s.peer.ph = h) ∧
    (∀ r ∈ [0#4, 6#4], (inData .reading r 0#1).cs = false ∧ (inData .reading r 0#1).peer.convst ≠ .converting ∧
      (inData .reading r 0#1).peer.moved = false) ∧
    (inData .reading 0#4 1#1).peer.ph = 1#1 ∧
    (let s : State := { inData .reading 1#4 0#1 with peer := { chip with pmode := .reading, ptr := 1#4, moved := true } }
     s.cs = false ∧ s.peer.convst ≠ .converting ∧ s.peer.moved = true ∧ s.peer.ph = 0#1) := by decide

theorem witness_RefusedResult : (0x08500#18).extractLsb' 17 1 = 0#1 ∧ ((0x08500#18).extractLsb' 14 3).toNat ≤ 3 ∧
    (0x0FFFF#18).extractLsb' 17 1 = 0#1 ∧ ((0x0FFFF#18).extractLsb' 14 3).toNat = 3 := by decide
/-- Its two clauses. -/
theorem witness_BytesOutsideADataPhase : (selected .ignore).peer.pmode = .ignore ∧ (selected .ignore).peer.unknown = false ∧
    block.peer.pmode = .deselected ∧ block.peer.unknown = false ∧ (selected .fastDone).peer.pmode = .fastDone := by decide
/-- At either level of chip-select. -/
theorem witness_ChipPowerUpResult : ({ block with chipPowerUp := true } : State).chipPowerUp = true ∧ block.cs = true ∧
    ({ selected .reading with chipPowerUp := true } : State).chipPowerUp = true ∧ (selected .reading).cs = false :=
  ⟨rfl, rfl, rfl, rfl⟩

theorem witness_ConvertStartsTheChannel : block.chipReady ∧ block.transportDone 3 := ⟨block_ready, rfl⟩
theorem witness_ResetDisablesStartInterrupt : block.cs = true ∧ block.hasAddress block.peer.sa ∧ block.transportDone 5 :=
  ⟨rfl, block_ready.1, rfl⟩
theorem witness_Reads16ReturnsTheResult : block.chipReady ∧ block.transportDone 3 ∧ block.peer.convst = .resultReady :=
  ⟨block_ready, rfl, rfl⟩
theorem witness_Wreg8WritesTheRegister : block.chipReady ∧ block.transportDone 2 := ⟨block_ready, rfl⟩
/-- With a result ready, and with none. -/
theorem witness_RregReadsTheRegister : (block.chipReady ∧ block.transportDone 3 ∧ block.peer.convst = .resultReady) ∧
    (let s : State := { block with peer := { chip with convst := .noResult, lineLow := false } }
     s.chipReady ∧ s.transportDone 3 ∧ s.peer.convst = .noResult) :=
  ⟨⟨block_ready, rfl, rfl⟩, ⟨by unfold State.hasAddress; decide, rfl, rfl⟩, rfl, rfl⟩
/-- Its three clauses at the addresses next to the described ones. -/
theorem witness_UndescribedAccessGoesUnknown : block.chipReady ∧ block.transportDone 3 ∧
    ((0#4 : RegAddr) ≠ 5#4 ∧ (0#4 : RegAddr) ≠ 6#4) ∧ ((7#4 : RegAddr) ≠ 0#4 ∧ (7#4 : RegAddr) ≠ 5#4 ∧ (7#4 : RegAddr) ≠ 6#4) ∧
    (∀ ra ∈ [1#4, 4#4, 6#4, 7#4, 15#4], (ra : RegAddr) ≠ 0#4 ∧ ra ≠ 5#4) :=
  ⟨block_ready, rfl, by decide, by decide, by decide⟩
theorem witness_OtherDeviceUntouched :
    let s : State := { block with addrbits := 0xC0#8 }
    (Instr.reset ∈ [Instr.reset, .reads16] ∨ (∃ ch, Instr.reset = .convert ch) ∨ (∃ op, Instr.reset = .fastcmd op) ∨
      (∃ ra v, Instr.reset = .wreg8 ra v) ∨ (∃ ra, Instr.reset = .rreg8 ra) ∨ (∃ ra, Instr.reset = .rreg16 ra)) ∧
    s.cs = true ∧ s.hasAddress 3#2 ∧ (3#2 : DevAddr) ≠ s.peer.sa ∧ s.peer.unknown = false ∧ s.peer.convst ≠ .converting ∧
    s.transportDone 5 := by
  refine ⟨.inl (by decide), rfl, ?_, by decide, rfl, by decide, rfl⟩
  unfold State.hasAddress; decide
theorem witness_PublicOperationsKeepTheChipKnown :
    (Instr.convert 15#4 ∈ [Instr.reset, .reads16, .drdy] ∨ ∃ ch, Instr.convert 15#4 = .convert ch) ∧ block.chipReady ∧
    block.transportDone 5 := ⟨.inr ⟨_, rfl⟩, block_ready, rfl⟩
theorem witness_DrdyTellsTheLine : block.peer.unknown = false ∧ block.peer.irq.getLsbD 0 = false ∧ block.drdyPullup = true := by
  decide
theorem witness_PlaceholdersDoNotMatter : block.cs = true := rfl
theorem witness_EventCounts : block.cs = true ∧ block.transportDone 5 := ⟨rfl, rfl⟩
theorem witness_OperationsEnd :
    ({ block with xfers := [.done, .faultBefore 1, .done, .faultAfter 2, .done] } : State).transportAnswers 5 := by
  refine ⟨by decide, ?_⟩; decide

/-- A block that waits for the transport at the first byte of a READS16. -/
def waiting (x : Xfer) : State :=
  { selected .awaitCmd with busy := true, seq := .pos .reads16 0 (.byte 0), xfers := [x], req := some 0x1C000#18 }

/-- Its second clause: an operation resumed after an unanswered exchange, and the response of a finished one due. -/
theorem witness_OperationsEnd_resumed :
    let s : State := { waiting .wait with xfers := [.done, .wrongByte 1#8, .faultAfter 2, .done, .done] }
    let u : State := { s with cs := true, eventSteps := true, seq := .pos .reads16 0 .respond }
    (s.turn = .resume ∧ s.seq.legal = true ∧ s.transportAnswers 5 ∧ s.eventSteps = false) ∧
    (u.turn = .resume ∧ u.seq.legal = true ∧ u.transportAnswers 5 ∧ u.eventSteps = true) := by
  refine ⟨⟨by decide, by decide, ⟨by decide, ?_⟩, rfl⟩, ⟨by decide, by decide, ⟨by decide, ?_⟩, rfl⟩⟩ <;> decide

theorem witness_FaultBeforeByte : (waiting (.faultBefore 7)).turn = .resume ∧
    (waiting (.faultBefore 7)).seq = .pos .reads16 0 (.byte 0) ∧
    (waiting (.faultBefore 7)).prim .reads16 0 = some (.rreg16 raAdcdata) ∧ 0 < primLen (.rreg16 raAdcdata) ∧
    (waiting (.faultBefore 7)).cs = false ∧ (waiting (.faultBefore 7)).xfers = .faultBefore 7 :: [] := by decide
theorem witness_FaultAfterByte : (waiting (.faultAfter 7)).turn = .resume ∧
    (waiting (.faultAfter 7)).seq = .pos .reads16 0 (.byte 0) ∧
    (waiting (.faultAfter 7)).prim .reads16 0 = some (.rreg16 raAdcdata) ∧ 0 < primLen (.rreg16 raAdcdata) ∧
    (waiting (.faultAfter 7)).cs = false ∧ (waiting (.faultAfter 7)).xfers = .faultAfter 7 :: [] := by decide
theorem witness_ConvertFaultKeepsTheWrite :
    let s : State := { block with peer := { chip with convst := .noResult, lineLow := false }, xfers := [.done, .done, .faultBefore 9] }
    s.chipReady ∧ s.peer.convst = .noResult ∧ s.xfers = .done :: .done :: .faultBefore 9 :: [] :=
  ⟨⟨by unfold State.hasAddress; decide, rfl, rfl⟩, rfl, rfl⟩
theorem witness_FrameAfterFaultHasNoFall : corrupted.cs = false ∧ corrupted.transportCompletes 5 :=
  ⟨rfl, corrupted_completes 5 (by decide)⟩
theorem witness_UnansweredExchangeWaits : (waiting .wait).turn = .resume ∧ (waiting .wait).seq = .pos .reads16 0 (.byte 0) ∧
    (waiting .wait).prim .reads16 0 = some (.rreg16 raAdcdata) ∧ 0 < primLen (.rreg16 raAdcdata) ∧
    (waiting .wait).xfers = .wait :: [] ∧ (waiting .wait).peer.unknown = false ∧
    (let s : State := { waiting .wait with peer := { chip with pmode := .awaitCmd, unknown := true } }
     s.turn = .resume ∧ s.xfers = .wait :: [] ∧ s.peer.unknown = true) := by decide

/-- Its clauses: a request, a command byte, a released `rst` over an operation in progress, each grain of a step, a resumption. -/
theorem witness_StepRunsTheInstruction :
    (let s : State := { block with req := some 0x14200#18 }
     s.chipPowerUp = false ∧ s.rst = false ∧ s.seq = .idle ∧ s.busy = false ∧ s.wireIn = none ∧ s.req = some 0x14200#18) ∧
    (let s : State := { selected .awaitCmd with wireIn := some 0x68#8 }
     s.chipPowerUp = false ∧ s.rst = false ∧ s.seq = .idle ∧ s.peer.pmode = .awaitCmd ∧ s.wireIn = some 0x68#8) ∧
    (let s : State := { waiting .wait with rst := true }
     s.chipPowerUp = false ∧ s.rst = true) ∧
    (let s : State := { block with eventSteps := true, req := some 0x14200#18 }
     s.req = some 0x14200#18 ∧ (({ s.convTick with req := none } : State).accepted (decodeReq18 0x14200#18)).isSome = true) ∧
    (block.accepted (.fastcmd 0x28#6)).isSome = true ∧ (block.accepted (.refused 0#2 0#6 0#8)) = none ∧
    ((waiting .wait).turn = .resume ∧ (waiting .wait).seq.legal = true) := by decide
theorem witness_PlacedWordRunsNext : decodeTableWord 8 0xFF = some (.incr 3#2 15#4) ∧
    decodeTableWord 24 0x3FFFF = some .drdy := by decide
theorem witness_RequestWaitsWhileBusy : (waiting .wait).chipPowerUp = false ∧ (waiting .wait).rst = false ∧
    (waiting .wait).busy = true ∧ (waiting .wait).wireIn = none ∧ ∃ t, step (waiting .wait) = .next t :=
  ⟨rfl, rfl, rfl, rfl, _, rfl⟩

theorem witness_StepKeepsInvariant : block.Inv where
  busy_rsp := by decide
  busy_iff := by decide
  seq_legal := by decide
  addr_low := by decide
  status_legal := by decide
  pullup := by decide
  selected_iff := by decide
  frame_low := by decide
  line := by unfold Peer.lineFollows; decide
  ph := by unfold Peer.phLegal; decide
theorem witness_AddressBitsOnlyByConstruction : ∃ t, step { block with req := some 0x14200#18 } = .next t ∧
    block.rst = false ∧ block.seq ≠ .pos .construct 0 .init := ⟨_, rfl, rfl, by decide⟩
/-- Its two clauses: a fault already recorded, through a request and through a released `rst`, and one taken in this step. -/
theorem witness_FaultedStaysSet :
    (∃ t, step { block with faulted := true, req := some 0x1C000#18 } = .next t) ∧
    (after (step { block with faulted := true, rst := true })).map (fun t => t.faulted) = some true ∧
    (waiting (.faultBefore 7)).faulted = false ∧
    (after (step (waiting (.faultBefore 7)))).map (fun t => t.faulted) = some true := ⟨⟨_, rfl⟩, by decide, rfl, by decide⟩
theorem witness_UnknownEndsOnlyByFullReset :
    let s : State := { selected .awaitCmd with peer := { chip with pmode := .awaitCmd, unknown := true }, wireIn := some 0x78#8 }
    s.chipPowerUp = false ∧ s.peer.unknown = true ∧ (after (step s)).map (fun t => t.peer.unknown) = some false := by decide
theorem witness_TraceOnlyGrows : ∃ t, step { block with req := some 0x1C000#18 } = .next t := ⟨_, rfl⟩
theorem witness_ConversionEndsOnlyFromConverting :
    let s : State := { block with peer := { chip with convst := .converting } }
    s.turn = .quiet ∧ s.peer.unknown = false ∧ s.peer.convst = .converting := by decide

end Sys2Proof.Tests
end

-- Proofs of the encoding family (spec/30_encoding.md): the request word (O3) and the command bytes (O6).
section
/-! The request word is taken apart once, field by field; the decoder is then a function of its four fields. A command byte is
the device address over six low bits, however it is packed. -/

namespace Sys2Proof

/-! ### The fields of a request word (R98) -/

theorem encodeReq18_extract_above_d (p : BitVec 1) (o : BitVec 3) (a : BitVec 6) (d : Byte) {k n : Nat} (h : 8 ≤ k) :
    (encodeReq18 p o a d).extractLsb' k n = (p ++ o ++ a).extractLsb' (k - 8) n :=
  BitVec.extractLsb'_append_eq_of_le h

theorem encodeReq18_extract_above_a (p : BitVec 1) (o : BitVec 3) (a : BitVec 6) (d : Byte) {k n : Nat} (h : 14 ≤ k) :
    (encodeReq18 p o a d).extractLsb' k n = (p ++ o).extractLsb' (k - 8 - 6) n :=
  (encodeReq18_extract_above_d p o a d (by omega)).trans (BitVec.extractLsb'_append_eq_of_le (by omega))

@[simp] theorem encodeReq18_priv (p : BitVec 1) (o : BitVec 3) (a : BitVec 6) (d : Byte) :
    (encodeReq18 p o a d).extractLsb' 17 1 = p :=
  (encodeReq18_extract_above_a p o a d (by decide)).trans BitVec.extractLsb'_append_eq_left

@[simp] theorem encodeReq18_opsel (p : BitVec 1) (o : BitVec 3) (a : BitVec 6) (d : Byte) :
    (encodeReq18 p o a d).extractLsb' 14 3 = o :=
  (encodeReq18_extract_above_a p o a d (by decide)).trans BitVec.extractLsb'_append_eq_right

/-- The refused request keeps the two low bits of `opsel` (R101). -/
@[simp] theorem encodeReq18_opselLow (p : BitVec 1) (o : BitVec 3) (a : BitVec 6) (d : Byte) :
    (encodeReq18 p o a d).extractLsb' 14 2 = o.extractLsb' 0 2 :=
  (encodeReq18_extract_above_a p o a d (by decide)).trans (BitVec.extractLsb'_append_eq_of_add_le (by decide))

@[simp] theorem encodeReq18_a (p : BitVec 1) (o : BitVec 3) (a : BitVec 6) (d : Byte) :
    (encodeReq18 p o a d).extractLsb' 8 6 = a :=
  (encodeReq18_extract_above_d p o a d (by decide)).trans BitVec.extractLsb'_append_eq_right

/-- A register address or a channel is the low four bits of field `a` (R96). -/
@[simp] theorem encodeReq18_aLow (p : BitVec 1) (o : BitVec 3) (a : BitVec 6) (d : Byte) :
    (encodeReq18 p o a d).extractLsb' 8 4 = a.extractLsb' 0 4 :=
  (encodeReq18_extract_above_d p o a d (by decide)).trans (BitVec.extractLsb'_append_eq_of_add_le (by decide))

@[simp] theorem encodeReq18_d (p : BitVec 1) (o : BitVec 3) (a : BitVec 6) (d : Byte) :
    (encodeReq18 p o a d).extractLsb' 0 8 = d :=
  BitVec.extractLsb'_append_eq_right

/-! ### The decoder by fields (R99, R101) -/

/-- The decoder reads a request word through its fields alone. -/
theorem decodeReq18_encodeReq18 (p : BitVec 1) (o : BitVec 3) (a : BitVec 6) (d : Byte) :
    decodeReq18 (encodeReq18 p o a d) =
      if o = 4#3 then .reset
      else if o = 5#3 then .convert (a.extractLsb' 0 4)
      else if o = 6#3 then .reads16
      else if o = 7#3 then .drdy
      else if p = 0#1 then .refused (o.extractLsb' 0 2) a d
      else if o = 0#3 then .fastcmd a
      else if o = 1#3 then .wreg8 (a.extractLsb' 0 4) d
      else if o = 2#3 then .rreg8 (a.extractLsb' 0 4)
      else .rreg16 (a.extractLsb' 0 4) := by
  simp [decodeReq18]

/-- An `opsel` of 0 to 3, its top bit clear, is none of the public operations'. -/
theorem opselTopClear_ne_public (sel : BitVec 2) :
    0#1 ++ sel ≠ 4#3 ∧ 0#1 ++ sel ≠ 5#3 ∧ 0#1 ++ sel ≠ 6#3 ∧ 0#1 ++ sel ≠ 7#3 := by
  revert sel; decide

theorem decodeReq18_refused (sel : BitVec 2) (a : BitVec 6) (d : Byte) :
    decodeReq18 (encodeReq18 0#1 (0#1 ++ sel) a d) = .refused sel a d := by
  obtain ⟨h4, h5, h6, h7⟩ := opselTopClear_ne_public sel
  have hsel : (0#1 ++ sel).extractLsb' 0 2 = sel := BitVec.extractLsb'_append_eq_right
  rw [decodeReq18_encodeReq18, if_neg h4, if_neg h5, if_neg h6, if_neg h7, if_pos rfl, hsel]

/-- Settles O3: the word is the concatenation of its fields, so each `opsel` value selects its branch of
`decodeReq18_encodeReq18`. -/
theorem requestWordFields : Obligations.RequestWordFields := by
  unfold Obligations.RequestWordFields
  intro p a d
  have byFields (priv : BitVec 1) (opsel : BitVec 3) := decodeReq18_encodeReq18 priv opsel a d
  exact ⟨byFields 1#1 0#3, byFields 1#1 1#3, byFields 1#1 2#3, byFields 1#1 3#3, byFields p 4#3, byFields p 5#3,
    byFields p 6#3, byFields p 7#3, fun sel => decodeReq18_refused sel a d⟩

end Sys2Proof

namespace Sys2Proof.Machine

/-! ### Command bytes (R91, R92, R103) -/

/-- A format F byte is the device address over the opcode (R91). -/
theorem fastByte_addrBitsOf (a : DevAddr) (op : FastOp) : fastByte (addrBitsOf a) op = encodeCmd8 a op := by
  rw [encodeCmd8, BitVec.append_def]
  simp [fastByte, addrBitsOf, BitVec.shiftLeftZeroExtend_eq]

/-- Formats R and F differ in the low six bits only: the register address over the transfer type stands for the opcode. -/
theorem regByte_eq_fastByte (addrbits : Byte) (ra : RegAddr) (xt : BitVec 2) :
    regByte addrbits ra xt = fastByte addrbits (ra ++ xt) := by
  have packed : ra.setWidth 8 <<< 2 ||| xt.setWidth 8 = (ra ++ xt).setWidth 8 := by revert ra xt; decide
  rw [regByte, fastByte, BitVec.or_assoc, packed]

/-- A format R byte is the device address over the register address over the transfer type (R92). -/
theorem regByte_addrBitsOf (a : DevAddr) (ra : RegAddr) (xt : BitVec 2) :
    regByte (addrBitsOf a) ra xt = encodeCmd8 a (ra ++ xt) := by
  rw [regByte_eq_fastByte, fastByte_addrBitsOf]

/-- Settles O6: every public command byte is the device address over the table's bits 5 to 0. -/
theorem publicCommandBytes : Obligations.PublicCommandBytes := by
  unfold Obligations.PublicCommandBytes
  simp only [fastByte_addrBitsOf, regByte_addrBitsOf]
  decide

end Sys2Proof.Machine
end

-- Proofs of the primitives family (spec/40_primitives.md): the device address stays in the command byte (O7).
section
/-! A load touches the stored address in one place, the command byte, and there it is the device address over six bits that the
primitive alone fixes (R131). -/

namespace Sys2Proof.Machine

/-! ### The bytes a load leaves in the buffer (R122, R124, R126, R128) -/

/-- Bits 5 to 0 of a primitive's command byte: the opcode, or the register address over the transfer type (R91, R92). -/
def primLow : Prim → BitVec 6
  | .fastcmd op => op
  | .wreg8 ra _ => ra ++ xtWrite
  | .rreg8 ra => ra ++ xtRead
  | .rreg16 ra => ra ++ xtRead

theorem State.load_commandByte (p : Prim) (s : State) :
    (s.load p).bufByte (primBuf p) 0 = fastByte s.addrbits (primLow p) := by
  cases p with
  | fastcmd op => rfl
  | wreg8 ra v => exact regByte_eq_fastByte s.addrbits ra xtWrite
  | rreg8 ra => exact regByte_eq_fastByte s.addrbits ra xtRead
  | rreg16 ra => exact regByte_eq_fastByte s.addrbits ra xtRead

/-- Where the block stores the device address `a`, every primitive's command byte is that address over `primLow`. -/
theorem State.load_commandByte_of_hasAddress {a : DevAddr} {s : State} (h : s.hasAddress a) (p : Prim) :
    (s.load p).bufByte (primBuf p) 0 = encodeCmd8 a (primLow p) := by
  rw [State.load_commandByte, h, fastByte_addrBitsOf]

/-- The value of a register write and the placeholders of a read do not depend on the stored address. -/
theorem State.load_dataByte_addrbits (p : Prim) (b : Byte) {i : Nat} (h0 : 0 < i) (hi : i < primLen p) (s : State) :
    (State.load p { s with addrbits := b }).bufByte (primBuf p) i = (s.load p).bufByte (primBuf p) i := by
  obtain ⟨i, rfl⟩ := Nat.exists_eq_add_one.mpr h0
  cases p with
  | fastcmd op => exact absurd hi (by simp [primLen])
  | wreg8 ra v => rfl
  | rreg8 ra => rfl
  | rreg16 ra => cases i <;> rfl

/-! ### The two fields of a command byte (R103) -/

@[simp] theorem encodeCmd8_address (a : DevAddr) (low : BitVec 6) : (encodeCmd8 a low).extractLsb' 6 2 = a :=
  BitVec.extractLsb'_append_eq_left

@[simp] theorem encodeCmd8_low (a : DevAddr) (low : BitVec 6) : (encodeCmd8 a low).extractLsb' 0 6 = low :=
  BitVec.extractLsb'_append_eq_right

/-- Settles O7: under either address the command byte is `encodeCmd8` of that address and the same low bits, and no other byte
reads the address. -/
theorem addressNeverLeaks : Obligations.AddressNeverLeaks := by
  unfold Obligations.AddressNeverLeaks
  intro p s a t t0
  have stored (b : DevAddr) : State.hasAddress b { s with addrbits := addrBitsOf b } := rfl
  have cmd : t.bufByte (primBuf p) 0 = encodeCmd8 a (primLow p) := State.load_commandByte_of_hasAddress (stored a) p
  have cmd0 : t0.bufByte (primBuf p) 0 = encodeCmd8 0#2 (primLow p) := State.load_commandByte_of_hasAddress (stored 0#2) p
  refine ⟨?commandByte, ?addressZero, ?otherBytes⟩
  case commandByte => rw [cmd, cmd0, encodeCmd8_low, encodeCmd8]
  case addressZero => rw [cmd0, encodeCmd8_address]
  case otherBytes =>
    intro i h0 hi
    exact (State.load_dataByte_addrbits p _ h0 hi s).trans (State.load_dataByte_addrbits p _ h0 hi s).symm

end Sys2Proof.Machine
end

-- Proofs of the sign-extender family (spec/42_sign_extend.md): SEXT16 as an integer (O20, O22) and bit by bit (O21).
section
/-! SEXT16's integer is the two's-complement value of the raw sample, and widening a pattern by its top bit keeps that value: the
library's facts on `BitVec.toInt` and `BitVec.signExtend` then say what the unit does. -/

namespace Sys2Proof.Machine

/-! ### The integer (R160, R162) -/

/-- `sint(raw)` is the two's-complement value of the pattern (R160). -/
theorem sext16Int_eq_toInt (raw : Half) : sext16Int raw = raw.toInt :=
  (BitVec.toInt_eq_msb_cond raw).symm

theorem neg_32768_le_sext16Int (raw : Half) : -32768 ≤ sext16Int raw := by
  rw [sext16Int_eq_toInt]
  exact BitVec.le_toInt raw

theorem sext16Int_le_32767 (raw : Half) : sext16Int raw ≤ 32767 := by
  rw [sext16Int_eq_toInt]
  exact Int.le_of_lt_add_one BitVec.toInt_lt

theorem sext16Int_of_le {raw : Half} (h : raw.toNat ≤ 0x7FFF) : sext16Int raw = raw.toNat := by
  rw [sext16Int_eq_toInt, BitVec.toInt_eq_toNat_of_lt (by omega)]

theorem sext16Int_of_ge {raw : Half} (h : 0x8000 ≤ raw.toNat) : sext16Int raw = raw.toNat - 0x10000 := by
  have top : raw.msb = true := BitVec.msb_eq_true_iff_two_mul_ge.mpr (by omega)
  rw [sext16Int, if_pos top]

theorem sext16Int_injective : Function.Injective sext16Int := by
  intro x y h
  rw [sext16Int_eq_toInt, sext16Int_eq_toInt] at h
  exact BitVec.eq_of_toInt_eq h

theorem sext16Int_ofInt {z : Int} (lo : -32768 ≤ z) (hi : z ≤ 32767) : sext16Int (BitVec.ofInt 16 z) = z := by
  rw [sext16Int_eq_toInt]
  exact BitVec.toInt_ofInt_eq_self (by decide) lo (Int.lt_add_one_of_le hi)

theorem sext16Int_emod (raw : Half) : sext16Int raw % 65536 = raw.toNat := by
  have bound : raw.toNat < 65536 := raw.isLt
  rcases Nat.lt_or_ge raw.toNat 0x8000 with low | high
  · rw [sext16Int_of_le (by omega)]
    omega
  · rw [sext16Int_of_ge high]
    omega

/-! ### The pattern (R161) -/

/-- The integer a sign-extended sample denotes does not depend on the result's width. -/
theorem toInt_signExtend_eq_sext16Int (raw : Half) {sw : Nat} (h : 16 ≤ sw) :
    (raw.signExtend sw).toInt = sext16Int raw :=
  (BitVec.toInt_signExtend_of_le h).trans (sext16Int_eq_toInt raw).symm

theorem sext16Word_toInt (raw : Half) : (sext16Word raw).toInt = sext16Int raw :=
  toInt_signExtend_eq_sext16Int raw (by decide)

theorem sext16Word_low (raw : Half) : (sext16Word raw).extractLsb' 0 16 = raw := by
  ext i hi
  have inWord : i < 32 := by omega
  rw [BitVec.getElem_extractLsb', Nat.zero_add, sext16Word, BitVec.getLsbD_signExtend, if_pos hi]
  simp [inWord, hi]

theorem sext16Word_high (raw : Half) {i : Nat} (lo : 16 ≤ i) (hi : i < 32) :
    (sext16Word raw).getLsbD i = raw.getLsbD 15 := by
  rw [sext16Word, BitVec.getLsbD_signExtend, if_neg (Nat.not_lt.mpr lo), BitVec.msb_eq_getLsbD_last]
  simp [hi]

/-! ### The instruction -/

/-- SEXT16 drives its output and writes nothing else (R160). -/
theorem exec_sext16 (raw : Half) (s : State) : exec (.sext16 raw) s = .next { s with sextOut := sext16Word raw } := rfl

/-- Settles O20: the output is `sext16Word raw`, whose integer is `sext16Int raw`. -/
theorem sext16Result : Obligations.Sext16Result := by
  unfold Obligations.Sext16Result
  intro raw s
  refine ⟨rfl, sext16Word raw, exec_sext16 raw s, ?_⟩
  rw [sext16Word_toInt]
  refine ⟨?_, neg_32768_le_sext16Int raw, sext16Int_le_32767 raw⟩
  rw [sext16Int, BitVec.msb_eq_getLsbD_last]

/-- Settles O21: READS16 responds with `sext16Word` of T16, whose low half is the sample and whose high half is its top bit. -/
theorem sext16Bits : Obligations.Sext16Bits := by
  unfold Obligations.Sext16Bits
  exact ⟨fun s => State.respond_rspData .., fun raw => ⟨sext16Word_low raw, fun _ => sext16Word_high raw,
    fun _ => toInt_signExtend_eq_sext16Int raw, BitVec.signExtend_eq raw⟩⟩

/-- Settles O22: one to one because the integer fixes the pattern, onto because each integer of the range is that of its own
16-bit pattern. -/
theorem sext16Bijection : Obligations.Sext16Bijection := by
  unfold Obligations.Sext16Bijection
  refine ⟨fun _ => sext16Int_of_le, fun _ => sext16Int_of_ge, fun _ _ h => sext16Int_injective h,
    fun raw => ⟨neg_32768_le_sext16Int raw, sext16Int_le_32767 raw⟩, ?onto, sext16Int_emod, ?neverTraps⟩
  case onto => exact fun z lo hi => ⟨BitVec.ofInt 16 z, sext16Int_ofInt lo hi⟩
  case neverTraps => exact fun raw s => ⟨_, exec_sext16 raw s, sext16Word_toInt raw⟩

end Sys2Proof.Machine
end

-- Proofs of the exceptions family (spec/60_exceptions.md): a private primitive without privilege (O19).
section
/-! With `priv` 0 and an `opsel` that is none of the public operations', the decoder answers the refused request; all that such a
request does is a response and the draw of its unspecified data (R206). -/

namespace Sys2Proof

/-- An `opsel` of 0 to 3, read as a number, is none of the public operations'. -/
theorem ne_public_of_opsel_le_three {o : BitVec 3} (h : o.toNat ≤ 3) : o ≠ 4#3 ∧ o ≠ 5#3 ∧ o ≠ 6#3 ∧ o ≠ 7#3 := by
  refine ⟨?_, ?_, ?_, ?_⟩ <;> rintro rfl <;> exact absurd h (by decide)

/-- A private primitive's word without privilege is refused, and the refused request keeps its fields (R101, R206). -/
theorem decodeReq18_of_unprivileged {w : BitVec 18} (priv : w.extractLsb' 17 1 = 0#1)
    (opsel : (w.extractLsb' 14 3).toNat ≤ 3) :
    decodeReq18 w = .refused (w.extractLsb' 14 2) (w.extractLsb' 8 6) (w.extractLsb' 0 8) := by
  obtain ⟨h4, h5, h6, h7⟩ := ne_public_of_opsel_le_three opsel
  rw [decodeReq18, if_neg h4, if_neg h5, if_neg h6, if_neg h7, if_pos priv]

end Sys2Proof

namespace Sys2Proof.Machine

/-- A refusal writes the response's three fields and takes one draw; every other field of the state stays. -/
theorem State.refuse_eq (s : State) :
    s.refuse = { s with rspValid := true, rspStatus := statusRefused, rspData := Config.freeWord s.draws,
                        draws := s.draws + Config.drawStride } := rfl

/-- Which primitive was asked for, and with which arguments, makes no difference to a refusal (R206). -/
theorem exec_refused (sel : BitVec 2) (a : BitVec 6) (d : Byte) (s : State) : exec (.refused sel a d) s = .next s.refuse := rfl

/-- Settles O19: the decoder's refused branch is reached with `priv` 0 once the public operations are ruled out, and its meaning is
`State.refuse`, whose unspecified data is one free word. -/
theorem refusedResult : Obligations.RefusedResult := by
  unfold Obligations.RefusedResult
  refine ⟨?decodes, ?changesNothingElse⟩
  case decodes => exact fun w priv opsel => ⟨_, _, _, decodeReq18_of_unprivileged priv opsel⟩
  case changesNothingElse =>
    intro sel a d s
    exact ⟨Config.freeWord s.draws, s.draws + Config.drawStride, by rw [exec_refused, State.refuse_eq, statusRefused]⟩

end Sys2Proof.Machine
end

-- Proofs of the encoding family (spec/30_encoding.md): decode and encode agree (O1), every command byte (O2), the opcode table
-- (O4), the documented words (O5).
section
/-! Both directions of the round trip go through the fields: a command byte is its address over six low bits, a request word its
four fields, and three stored bytes are one request word. -/

namespace Sys2Proof

open Sys2Proof.Machine

/-! ### Command bytes (R90 to R93) -/

/-- The two low bits, which tell the formats apart, and the register address lie within the six low bits (R91, R92). -/
theorem encodeCmd8_extract (a : DevAddr) (low : BitVec 6) {k n : Nat} (h : k + n ≤ 6) :
    (encodeCmd8 a low).extractLsb' k n = low.extractLsb' k n :=
  BitVec.extractLsb'_append_eq_of_add_le h

/-- The decoder reads a command byte through its two fields. -/
theorem decodeCmd8_encodeCmd8 (a : DevAddr) (low : BitVec 6) :
    decodeCmd8 (encodeCmd8 a low) =
      if low.extractLsb' 0 2 = 0#2 then
        if low = 0x28#6 then .fastStart a else if low = 0x38#6 then .fastReset a else .fastOther a low
      else if low.extractLsb' 0 2 = 1#2 then .xt01 a (low.extractLsb' 2 4)
      else if low.extractLsb' 0 2 = 2#2 then .incw a (low.extractLsb' 2 4)
      else .incr a (low.extractLsb' 2 4) := by
  simp only [decodeCmd8, encodeCmd8_address, encodeCmd8_low, encodeCmd8_extract a low (show 0 + 2 ≤ 6 by decide),
    encodeCmd8_extract a low (show 2 + 4 ≤ 6 by decide)]

/-- A format R byte is decoded by its transfer type (R92). -/
theorem decodeCmd8_register (a : DevAddr) (ra : RegAddr) (xt : BitVec 2) (h : xt ≠ 0#2) :
    decodeCmd8 (encodeCmd8 a (ra ++ xt)) = if xt = 1#2 then .xt01 a ra else if xt = 2#2 then .incw a ra else .incr a ra := by
  have hx : (ra ++ xt).extractLsb' 0 2 = xt := BitVec.extractLsb'_append_eq_right
  have hr : (ra ++ xt).extractLsb' 2 4 = ra := BitVec.extractLsb'_append_eq_left
  rw [decodeCmd8_encodeCmd8, hx, hr, if_neg h]

/-- A command byte is its two fields joined. -/
theorem encodeCmd8_fields (c : Byte) : encodeCmd8 (c.extractLsb' 6 2) (c.extractLsb' 0 6) = c := by
  revert c; decide

/-- A register command's six low bits are the register address over the transfer type (R92). -/
theorem lowBits_register (c : Byte) : c.extractLsb' 2 4 ++ c.extractLsb' 0 2 = c.extractLsb' 0 6 := by
  revert c; decide

/-- A well-formed wire command is what the decoder reads from its byte (R100). -/
theorem decodeCmd8_of_cmd8? {i : Instr} {c : Byte} (wf : i.wellFormed = true) (h : i.cmd8? = some c) : decodeCmd8 c = i := by
  cases i <;> simp only [Instr.cmd8?, Option.some.injEq, reduceCtorEq] at h <;> subst h
  case fastStart a => exact decodeCmd8_encodeCmd8 a _
  case fastReset a => exact decodeCmd8_encodeCmd8 a _
  case fastOther a op =>
    simp only [Instr.wellFormed, fastOpIsFast, fastOpIsOther, Bool.and_eq_true, beq_iff_eq, bne_iff_ne] at wf
    obtain ⟨fast, notStart, notReset⟩ := wf
    rw [decodeCmd8_encodeCmd8, if_pos fast, if_neg notStart, if_neg notReset]
  case xt01 a ra => exact decodeCmd8_register a ra 1#2 (by decide)
  case incw a ra => exact decodeCmd8_register a ra 2#2 (by decide)
  case incr a ra => exact decodeCmd8_register a ra 3#2 (by decide)

/-- Settles O2: along the branches of the decoder, each of which fixes the bits its row of the opcode table names. -/
theorem commandByteHasOneMeaning : Obligations.CommandByteHasOneMeaning := by
  unfold Obligations.CommandByteHasOneMeaning
  intro c
  have register (xt : BitVec 2) (h : c.extractLsb' 0 2 = xt) :
      encodeCmd8 (c.extractLsb' 6 2) (c.extractLsb' 2 4 ++ xt) = c := by
    rw [← h, lowBits_register, encodeCmd8_fields]
  have fast (op : FastOp) (h : c.extractLsb' 0 6 = op) : encodeCmd8 (c.extractLsb' 6 2) op = c := by
    rw [← h, encodeCmd8_fields]
  rw [decodeCmd8]
  by_cases hfast : c.extractLsb' 0 2 = 0#2
  · rw [if_pos hfast]
    split
    case isTrue start => exact ⟨rfl, congrArg some (fast _ start)⟩
    case isFalse notStart =>
      split
      case isTrue reset => exact ⟨rfl, congrArg some (fast _ reset)⟩
      case isFalse notReset =>
        have low : (c.extractLsb' 0 6).extractLsb' 0 2 = 0#2 := by
          rw [← hfast, ← encodeCmd8_extract (c.extractLsb' 6 2) _ (by decide), encodeCmd8_fields]
        exact ⟨by simp [Instr.wellFormed, fastOpIsFast, fastOpIsOther, low, notStart, notReset], congrArg some (fast _ rfl)⟩
  · rw [if_neg hfast]
    split
    case isTrue xt => exact ⟨rfl, congrArg some (register _ xt)⟩
    case isFalse notXt =>
      split
      case isTrue write => exact ⟨rfl, congrArg some (register _ write)⟩
      case isFalse notWrite =>
        have read : c.extractLsb' 0 2 = 3#2 := by
          generalize c.extractLsb' 0 2 = xt at hfast notXt notWrite
          revert xt; decide
        exact ⟨rfl, congrArg some (register _ read)⟩

/-- The byte of a full reset of device `a` is the only one that decodes to it (R178). -/
theorem eq_encode_of_decodeCmd8_fastReset {c : Byte} {a : DevAddr} (h : decodeCmd8 c = .fastReset a) :
    c = encodeCmd8 a opReset := by
  have henc := (commandByteHasOneMeaning c).2
  rw [h] at henc
  exact (Option.some.inj henc).symm

/-! ### Request words (R98, R99) -/

/-- A request is what the decoder reads from its word. -/
theorem decodeReq18_of_req18? {i : Instr} {w : BitVec 18} (h : i.req18? = some w) : decodeReq18 w = i := by
  have low (x : BitVec 4) : (0#2 ++ x).extractLsb' 0 4 = x := BitVec.extractLsb'_append_eq_right
  cases i <;> simp only [Instr.req18?, Option.some.injEq, reduceCtorEq] at h <;> subst h
  case refused sel a d => exact decodeReq18_refused sel a d
  all_goals simp [decodeReq18_encodeReq18, low]

/-- The three stored bytes of a request word decode to what the word does (log 22). -/
theorem decode_reqBytes (w : BitVec 18) : decode (reqBytes w) = .ok (decodeReq18 w) := by
  have high : (0#6 ++ w.extractLsb' 16 2).extractLsb' 2 6 = 0#6 := BitVec.extractLsb'_append_eq_left
  have top : (0#6 ++ w.extractLsb' 16 2).extractLsb' 0 2 = w.extractLsb' 16 2 := BitVec.extractLsb'_append_eq_right
  have joined : w.extractLsb' 16 2 ++ w.extractLsb' 8 8 ++ w.extractLsb' 0 8 = w := by
    rw [BitVec.extractLsb'_append_extractLsb'_eq_extractLsb' (by decide),
      BitVec.extractLsb'_append_extractLsb'_eq_extractLsb' (by decide)]
    exact BitVec.extractLsb'_eq_self
  simp only [reqBytes, decode, high, top, if_true]
  exact congrArg (fun v => Except.ok (decodeReq18 v)) joined

/-- Settles O1: a wire command is one byte, a request the three bytes of its word, and the two rows without encoding have neither. -/
theorem decodeEncodeAgree : Obligations.DecodeEncodeAgree := by
  unfold Obligations.DecodeEncodeAgree
  intro i wf
  refine ⟨?roundTrip, ?unencoded⟩
  case roundTrip =>
    intro bs h
    rw [encode] at h
    split at h
    case h_1 c hc => cases h; exact congrArg Except.ok (decodeCmd8_of_cmd8? wf hc)
    case h_2 =>
      obtain ⟨w, hw, rfl⟩ := Option.map_eq_some_iff.mp h
      rw [decode_reqBytes, decodeReq18_of_req18? hw]
  case unencoded => cases i <;> simp [encode, Instr.cmd8?, Instr.req18?]

/-! ### The opcode table (opcode_table.json) -/

/-- Which row a request word matches is decided by its privilege bit and `opsel`: no mask reaches the fields `a` and `d`. -/
theorem firstRow_req18 (p : BitVec 1) (o : BitVec 3) (a : BitVec 6) (d : Byte) :
    firstRow req18Rows (encodeReq18 p o a d).toNat = firstRow req18Rows (encodeReq18 p o 0#6 0#8).toNat := by
  have masked (m : BitVec 4) : (encodeReq18 p o a d).toNat &&& (m ++ 0#14).toNat =
      (encodeReq18 p o 0#6 0#8).toNat &&& (m ++ 0#14).toNat := by
    rw [← BitVec.toNat_and, ← BitVec.toNat_and, Laws.EncodingMatchesRow.req18_masked, Laws.EncodingMatchesRow.req18_masked]
  have publicMask := masked 0b0111#4
  have privateMask := masked 0b1111#4
  have refusedMask := masked 0b1100#4
  simp only [BitVec.reduceAppend, BitVec.reduceToNat] at publicMask privateMask refusedMask
  simp only [firstRow, req18Rows, List.find?, publicMask, privateMask, refusedMask]

/-- Which instruction a request word is, operands aside, is decided by its privilege bit and `opsel`. -/
theorem mnemonic_decodeReq18 (p : BitVec 1) (o : BitVec 3) (a : BitVec 6) (d : Byte) :
    (decodeReq18 (encodeReq18 p o a d)).mnemonic = (decodeReq18 (encodeReq18 p o 0#6 0#8)).mnemonic := by
  simp only [decodeReq18_encodeReq18, apply_ite Instr.mnemonic]
  rfl

/-- A request word is its four fields joined (R98). -/
theorem encodeReq18_fields (w : BitVec 18) :
    encodeReq18 (w.extractLsb' 17 1) (w.extractLsb' 14 3) (w.extractLsb' 8 6) (w.extractLsb' 0 8) = w := by
  rw [encodeReq18, BitVec.extractLsb'_append_extractLsb'_eq_extractLsb' (by decide),
    BitVec.extractLsb'_append_extractLsb'_eq_extractLsb' (by decide),
    BitVec.extractLsb'_append_extractLsb'_eq_extractLsb' (by decide)]
  exact BitVec.extractLsb'_eq_self

/-- Settles O4: 256 bytes one by one; of a request word the sixteen values of privilege bit and `opsel`, the rest making no
difference on either side. -/
theorem decoderFollowsOpcodeTable : Obligations.DecoderFollowsOpcodeTable := by
  unfold Obligations.DecoderFollowsOpcodeTable
  refine ⟨by decide, fun w => ?_⟩
  rw [← encodeReq18_fields w, firstRow_req18, mnemonic_decodeReq18]
  generalize w.extractLsb' 17 1 = p, w.extractLsb' 14 3 = o
  revert p o; decide

/-- Settles O5: fifteen closed evaluations of the decoder. -/
theorem documentedWordsDecode : Obligations.DocumentedWordsDecode := by
  unfold Obligations.DocumentedWordsDecode
  decide

end Sys2Proof
end

-- Proofs of the slave-decode family (spec/43_slave_decode.md): the six wire commands (O23 to O28) and bytes in every mode of the
-- chip (O29 to O31).
section
/-! A wire command is the exchange of its byte, so what the chip does with a byte is said once for each PMODE and once for each
command byte; the statements about commands and data bytes are read off from that. -/

namespace Sys2Proof.Machine

/-! ### A byte at the chip, by PMODE (R171) -/

theorem Peer.byte_deselected {p : Peer} (h : p.pmode = .deselected) (n : Nat) (o : Byte) :
    p.byte n o = (Config.freeByte n, p.settle n) := by simp only [Peer.byte, h]

theorem Peer.byte_awaitCmd {p : Peer} (h : p.pmode = .awaitCmd) (n : Nat) (o : Byte) :
    p.byte n o = (Config.freeByte n, p.command n o) := by simp only [Peer.byte, h]

theorem Peer.byte_ignore {p : Peer} (h : p.pmode = .ignore) (n : Nat) (o : Byte) :
    p.byte n o = (Config.freeByte n, p.settle n) := by simp only [Peer.byte, h]

theorem Peer.byte_fastDone {p : Peer} (h : p.pmode = .fastDone) (n : Nat) (o : Byte) :
    p.byte n o = (Config.freeByte n, p.enterUnknown.settle n) := by simp only [Peer.byte, h]

theorem Peer.byte_writing {p : Peer} (h : p.pmode = .writing) (n : Nat) (o : Byte) :
    p.byte n o = (Config.freeByte n, (p.writeData n o).settle n) := by simp only [Peer.byte, h]

theorem Peer.byte_reading {p : Peer} (h : p.pmode = .reading) (n : Nat) (o : Byte) :
    p.byte n o = (if p.unknown then Config.freeByte n else (p.readData n).1, (p.readData n).2.settle n) := by
  simp only [Peer.byte, h]

/-! ### The command byte, by wire command (R172) -/

theorem Peer.command_fastStart (n : Nat) (a : DevAddr) (p : Peer) :
    p.command n (encodeCmd8 a opStart) = Peer.addressed n a (p.fastStart n) p := by
  simp only [Peer.command, decodeCmd8_of_cmd8? (i := .fastStart a) (c := encodeCmd8 a opStart) rfl rfl]

theorem Peer.command_fastReset (n : Nat) (a : DevAddr) (p : Peer) :
    p.command n (encodeCmd8 a opReset) = Peer.addressed n a (p.fastReset n) p := by
  simp only [Peer.command, decodeCmd8_of_cmd8? (i := .fastReset a) (c := encodeCmd8 a opReset) rfl rfl]

theorem Peer.command_fastOther (n : Nat) (a : DevAddr) {op : FastOp} (h : (Instr.fastOther a op).wellFormed = true) (p : Peer) :
    p.command n (encodeCmd8 a op) = Peer.addressed n a p.fastOther p := by
  simp only [Peer.command, decodeCmd8_of_cmd8? (i := .fastOther a op) h rfl]

theorem Peer.command_xt01 (n : Nat) (a : DevAddr) (ra : RegAddr) (p : Peer) :
    p.command n (encodeCmd8 a (ra ++ 0b01#2)) = Peer.addressed n a p.xt01 p := by
  simp only [Peer.command, decodeCmd8_of_cmd8? (i := .xt01 a ra) rfl rfl]

theorem Peer.command_incw (n : Nat) (a : DevAddr) (ra : RegAddr) (p : Peer) :
    p.command n (encodeCmd8 a (ra ++ xtWrite)) = Peer.addressed n a (p.beginWrite ra) p := by
  simp only [Peer.command, decodeCmd8_of_cmd8? (i := .incw a ra) (c := encodeCmd8 a (ra ++ xtWrite)) rfl rfl]

theorem Peer.command_incr (n : Nat) (a : DevAddr) (ra : RegAddr) (p : Peer) :
    p.command n (encodeCmd8 a (ra ++ xtRead)) = Peer.addressed n a (p.beginRead ra) p := by
  simp only [Peer.command, decodeCmd8_of_cmd8? (i := .incr a ra) (c := encodeCmd8 a (ra ++ xtRead)) rfl rfl]

/-- A command byte for another device, whatever the command: the frame is ignored (R174). -/
theorem Peer.command_otherDevice (n : Nat) {c : Byte} {p : Peer} (h : c.extractLsb' 6 2 ≠ p.sa) :
    p.command n c = p.ignoreFrame.settle n := by
  obtain ⟨wf, byte⟩ := commandByteHasOneMeaning c
  generalize decodeCmd8 c = i at wf byte
  cases i <;> simp only [Instr.cmd8?, Option.some.injEq, reduceCtorEq] at byte <;> subst byte <;>
    rw [encodeCmd8_address] at h
  case fastStart a => rw [← Peer.addressed_other h]; exact Peer.command_fastStart n a p
  case fastReset a => rw [← Peer.addressed_other h]; exact Peer.command_fastReset n a p
  case fastOther a op => rw [← Peer.addressed_other h]; exact Peer.command_fastOther n a wf p
  case xt01 a ra => rw [← Peer.addressed_other h]; exact Peer.command_xt01 n a ra p
  case incw a ra => rw [← Peer.addressed_other h]; exact Peer.command_incw n a ra p
  case incr a ra => rw [← Peer.addressed_other h]; exact Peer.command_incr n a ra p

/-! ### A wire command is the exchange of its byte (R171) -/

/-- A wire command taken is its byte crossing, where the decoder gives that byte the same effect. -/
theorem State.takeCommand_eq_cross {a : DevAddr} {c : Byte} {eff : Peer} {s : State}
    (h : s.peer.command s.draws c = Peer.addressed s.draws a eff s.peer) : s.takeCommand a c eff = s.cross c := by
  by_cases hm : s.peer.pmode = .awaitCmd
  · simp only [State.takeCommand, State.cross, State.crossWith, State.received, if_pos hm, Peer.byte_awaitCmd hm, h]
  · simp only [State.takeCommand, State.cross, State.crossWith, State.received, if_neg hm]

/-- At a chip that awaits a command a wire command has its effect under the address test, its byte is in the trace, and nothing of
the block changes. -/
theorem State.takeCommand_awaitCmd {s : State} (h : s.peer.pmode = .awaitCmd) (a : DevAddr) (c : Byte) (eff : Peer) :
    s.takeCommand a c eff = { s with
      peer := Peer.addressed s.draws a eff s.peer, draws := s.draws + Config.drawStride
      trace := s.trace ++ [.byte c (Config.freeByte s.draws)] } := by
  simp only [State.takeCommand, if_pos h]
  rfl

/-- Settles O28: the byte of each wire command decodes to it, so the chip's command is that command's effect. -/
theorem wireCommandIsTheExchange : Obligations.WireCommandIsTheExchange := by
  unfold Obligations.WireCommandIsTheExchange
  intro i c s wf h
  cases i <;> simp only [Instr.cmd8?, Option.some.injEq, reduceCtorEq] at h <;> subst h
  case fastStart a => exact congrArg _ (State.takeCommand_eq_cross (Peer.command_fastStart _ a _))
  case fastReset a => exact congrArg _ (State.takeCommand_eq_cross (Peer.command_fastReset _ a _))
  case fastOther a op => exact congrArg _ (State.takeCommand_eq_cross (Peer.command_fastOther _ a wf _))
  case xt01 a ra => exact congrArg _ (State.takeCommand_eq_cross (Peer.command_xt01 _ a ra _))
  case incw a ra => exact congrArg _ (State.takeCommand_eq_cross (Peer.command_incw _ a ra _))
  case incr a ra => exact congrArg _ (State.takeCommand_eq_cross (Peer.command_incr _ a ra _))

/-- The instruction a command byte decodes to is the exchange of that byte. -/
theorem exec_decodeCmd8 (c : Byte) (s : State) : exec (decodeCmd8 c) s = .next (s.cross c) :=
  let ⟨wf, byte⟩ := commandByteHasOneMeaning c
  wireCommandIsTheExchange (decodeCmd8 c) c s wf byte

/-! ### Commands at a chip of their address (R176, R177, R178, R180, R182) -/

/-- Settles O23: the chip is known, so the command's effect is all that happens to it. -/
theorem fastStartResult : Obligations.FastStartResult := by
  unfold Obligations.FastStartResult
  intro a s mode own known
  refine ⟨Config.freeByte s.draws, (s.peer.fastStart s.draws).lineLow, s.draws + Config.drawStride, ?state, ?line, ?noResult⟩
  case state =>
    have effect : Peer.addressed s.draws a (s.peer.fastStart s.draws) s.peer = s.peer.fastStart s.draws := by
      rw [Peer.addressed_mine own.symm, Peer.settle_known (by exact known)]
    refine congrArg Host.Outcome.next ((State.takeCommand_awaitCmd mode a _ _).trans ?_)
    rw [effect]
    rfl
  case line =>
    intro h
    by_cases hc : s.peer.convst = .noResult <;> simp_all [Peer.fastStart]
  case noResult =>
    intro h
    simp [Peer.fastStart, h]

/-- Settles O24: the reset ends Unknown, so nothing is drawn after it. -/
theorem fastResetResult : Obligations.FastResetResult := by
  unfold Obligations.FastResetResult
  intro a s mode own
  have effect : Peer.addressed s.draws a (s.peer.fastReset s.draws) s.peer = s.peer.fastReset s.draws := by
    rw [Peer.addressed_mine own.symm, Peer.settle_known rfl]
  have taken := State.takeCommand_awaitCmd mode a (encodeCmd8 a opReset) (s.peer.fastReset s.draws)
  rw [effect] at taken
  exact ⟨_, _, _, _, _, congrArg Host.Outcome.next taken⟩

/-- A command whose effect is Unknown leaves the chip Unknown with its own address. -/
theorem Peer.addressed_enterUnknown {n : Nat} {a : DevAddr} {eff p : Peer} (own : p.sa = a) (heff : eff.unknown = true)
    (hsa : eff.sa = p.sa) : (Peer.addressed n a eff p).unknown = true ∧ (Peer.addressed n a eff p).sa = a := by
  rw [Peer.addressed_mine own.symm, Peer.settle_unknown, Peer.settle_sa]
  exact ⟨heff, hsa.trans own⟩

/-- Settles O25: both effects are Unknown. -/
theorem unknownCommandResult : Obligations.UnknownCommandResult := by
  unfold Obligations.UnknownCommandResult
  intro a s mode own
  exact ⟨fun op => ⟨_, _, _, congrArg Host.Outcome.next (State.takeCommand_awaitCmd mode a _ _),
      Peer.addressed_enterUnknown own rfl rfl⟩,
    fun ra => ⟨_, _, _, congrArg Host.Outcome.next (State.takeCommand_awaitCmd mode a _ _),
      Peer.addressed_enterUnknown own rfl rfl⟩⟩

/-- Settles O26: the chip is known, so only the mode and the pointer change. -/
theorem registerCommandResult : Obligations.RegisterCommandResult := by
  unfold Obligations.RegisterCommandResult
  intro a ra s mode own known
  have taken (c : Byte) (eff : Peer) (h : eff.unknown = s.peer.unknown) :
      s.takeCommand a c eff = { s with
        peer := eff, draws := s.draws + Config.drawStride, trace := s.trace ++ [.byte c (Config.freeByte s.draws)] } := by
    rw [State.takeCommand_awaitCmd mode, Peer.addressed_mine own.symm, Peer.settle_known (h.trans known)]
  exact ⟨⟨_, _, congrArg Host.Outcome.next (taken _ (s.peer.beginWrite ra) rfl)⟩,
    ⟨_, _, congrArg Host.Outcome.next (taken _ (s.peer.beginRead ra) rfl)⟩⟩

/-- Settles O27: the exchange of the command's byte, whose address field is not the chip's. -/
theorem otherDeviceCommandIgnored : Obligations.OtherDeviceCommandIgnored := by
  unfold Obligations.OtherDeviceCommandIgnored
  intro i c s wf byte mode other known
  refine ⟨Config.freeByte s.draws, s.draws + Config.drawStride, ?_⟩
  have crossed : s.peer.byte s.draws c = (Config.freeByte s.draws, s.peer.ignoreFrame) := by
    rw [Peer.byte_awaitCmd mode, Peer.command_otherDevice _ other, Peer.settle_known (by exact known)]
  rw [wireCommandIsTheExchange i c s wf byte, State.cross, State.crossWith, State.received, crossed]
  rfl

/-! ### Data bytes (R180, R182, R184) -/

/-- Bit `b` of IRQ after a write: bit 0 is the byte's; another bit is the byte's or the bit held, as the chip draws it (R180). -/
theorem irqWritten_getLsbD (n : Nat) (d old : Byte) {b : Nat} (hb : b < 8) :
    (irqWritten n d old).getLsbD b =
      if b = 0 ∨ (Config.freeByte (n + 1)).getLsbD b = true then d.getLsbD b else old.getLsbD b := by
  have low : (0x01#8).getLsbD b = decide (b = 0) := by revert b; decide
  have high : (0xFE#8).getLsbD b = decide (b ≠ 0) := by revert b; decide
  simp only [irqWritten, BitVec.getLsbD_or, BitVec.getLsbD_and, BitVec.getLsbD_not, low, high, hb]
  by_cases h0 : b = 0
  · simp [h0]
  · cases hf : (Config.freeByte (n + 1)).getLsbD b <;> simp [h0]

theorem irqWritten_bit0 (n : Nat) (d old : Byte) : (irqWritten n d old).getLsbD 0 = d.getLsbD 0 := by
  rw [irqWritten_getLsbD n d old (by decide), if_pos (.inl rfl)]

theorem irqWritten_bit_cases (n : Nat) (d old : Byte) {b : Nat} (hb : b < 8) :
    (irqWritten n d old).getLsbD b = d.getLsbD b ∨ (irqWritten n d old).getLsbD b = old.getLsbD b := by
  rw [irqWritten_getLsbD n d old hb]
  split
  · exact .inl rfl
  · exact .inr rfl

/-- A read of IRQ returns bit 0 as held (R182). -/
theorem irqNow_bit0 (n : Nat) (held : Byte) : (irqNow n held).getLsbD 0 = held.getLsbD 0 := by
  simp [irqNow]

/-- The end of a read of ADCDATA releases the result or leaves the chip alone (R184, DRDY_CLEARS_ON_READ). -/
theorem Peer.adcdataReadDone_cases (n : Nat) (p : Peer) : p.adcdataReadDone n = p ∨ p.adcdataReadDone n = p.release := by
  unfold Peer.adcdataReadDone
  split
  · exact .inr rfl
  · exact .inl rfl

section known
variable {p : Peer} (known : p.unknown = false)
include known

/-! A known chip that is writing (R180, R186). -/

theorem Peer.byte_write_irq (mode : p.pmode = .writing) (h : p.ptr = 5#4) (n : Nat) (o : Byte) :
    p.byte n o = (Config.freeByte n, { p with irq := irqWritten n o p.irq, ptr := 6#4, ph := 0#1, moved := true }) := by
  rw [Peer.byte_writing mode, Peer.writeData, if_pos h, Peer.settle_known (by exact known)]

theorem Peer.byte_write_mux (mode : p.pmode = .writing) (h : p.ptr = 6#4) (n : Nat) (o : Byte) :
    p.byte n o = (Config.freeByte n, { p with mux := o, ptr := 7#4, ph := 0#1, moved := true }) := by
  rw [Peer.byte_writing mode, Peer.writeData, if_neg (by rw [h]; decide), if_pos h, Peer.settle_known (by exact known)]

/-! A known chip that is reading (R182, R184). -/

theorem Peer.byte_reading_known (mode : p.pmode = .reading) (n : Nat) (o : Byte) :
    p.byte n o = ((p.readData n).1, (p.readData n).2.settle n) := by
  rw [Peer.byte_reading mode, known]
  rfl

theorem Peer.byte_read_high (mode : p.pmode = .reading) (h : p.ptr = 0#4) (h0 : p.ph = 0#1) (n : Nat) (o : Byte) :
    p.byte n o = (if p.convst = .resultReady then p.adcdata.extractLsb' 8 8 else Config.freeByte n,
      { p with ph := 1#1, moved := true }) := by
  rw [Peer.byte_reading_known known mode, Peer.readData, if_pos h, if_pos h0, Peer.settle_known (by exact known)]

theorem Peer.byte_read_low_ready (mode : p.pmode = .reading) (h : p.ptr = 0#4) (h1 : p.ph = 1#1)
    (ready : p.convst = .resultReady) (n : Nat) (o : Byte) :
    p.byte n o = (p.adcdata.extractLsb' 0 8, ({ p with ptr := 1#4, ph := 0#1, moved := true } : Peer).adcdataReadDone n) := by
  rw [Peer.byte_reading_known known mode, Peer.readData, if_pos h, if_neg (by rw [h1]; decide), if_pos ready,
    Peer.settle_known (by rw [Peer.adcdataReadDone_unknown]; exact known)]

theorem Peer.byte_read_low_notReady (mode : p.pmode = .reading) (h : p.ptr = 0#4) (h1 : p.ph = 1#1)
    (notReady : p.convst ≠ .resultReady) (n : Nat) (o : Byte) :
    p.byte n o = (Config.freeByte n, { p with ptr := 1#4, ph := 0#1, moved := true }) := by
  rw [Peer.byte_reading_known known mode, Peer.readData, if_pos h, if_neg (by rw [h1]; decide), if_neg notReady,
    Peer.settle_known (by exact known)]

theorem Peer.byte_read_irq (mode : p.pmode = .reading) (h : p.ptr = 5#4) (n : Nat) (o : Byte) :
    p.byte n o = (irqNow n p.irq, { p with irq := irqNow n p.irq, ptr := 6#4, ph := 0#1, moved := true }) := by
  rw [Peer.byte_reading_known known mode, Peer.readData, if_neg (by rw [h]; decide), if_pos h,
    Peer.settle_known (by exact known)]

theorem Peer.byte_read_mux (mode : p.pmode = .reading) (h : p.ptr = 6#4) (n : Nat) (o : Byte) :
    p.byte n o = (p.mux, { p with ptr := 7#4, ph := 0#1, moved := true }) := by
  rw [Peer.byte_reading_known known mode, Peer.readData, if_neg (by rw [h]; decide), if_neg (by rw [h]; decide), if_pos h,
    Peer.settle_known (by exact known)]

end known

/-- A write anywhere but at IRQ and MUX is an access without a meaning (R186). -/
theorem Peer.byte_write_undescribed {p : Peer} (mode : p.pmode = .writing) (h5 : p.ptr ≠ 5#4) (h6 : p.ptr ≠ 6#4) (n : Nat)
    (o : Byte) : (p.byte n o).2.unknown = true := by
  rw [Peer.byte_writing mode, Peer.settle_unknown, Peer.writeData, if_neg h5, if_neg h6]
  rfl

/-- A read anywhere but at the three registers is an access without a meaning (R186). -/
theorem Peer.byte_read_undescribed {p : Peer} (mode : p.pmode = .reading) (h0 : p.ptr ≠ 0#4) (h5 : p.ptr ≠ 5#4)
    (h6 : p.ptr ≠ 6#4) (n : Nat) (o : Byte) : (p.byte n o).2.unknown = true := by
  rw [Peer.byte_reading mode, Peer.settle_unknown, Peer.readData, if_neg h0, if_neg h5, if_neg h6]
  rfl

/-- Settles O29: by the address the pointer is at. -/
theorem writeDataBytes : Obligations.WriteDataBytes := by
  unfold Obligations.WriteDataBytes
  intro d s mode known
  rw [State.cross_peer]
  refine ⟨fun irq => ?_, fun mux => ?_, fun not5 not6 => Peer.byte_write_undescribed mode not5 not6 _ _⟩
  · rw [Peer.byte_write_irq known mode irq]
    exact ⟨_, rfl, irqWritten_bit0 .., fun b hb => irqWritten_bit_cases _ _ _ hb⟩
  · rw [Peer.byte_write_mux known mode mux]

/-- The rise of chip-select at a chip that is not converting changes no register, and the ready state only where it cuts a read
short with a result ready (R188). -/
theorem Peer.csRise_idle {n : Nat} {p : Peer} (mode : p.pmode = .reading) (idle : p.convst ≠ .converting) :
    ∃ ptr ph c l, p.csRise n =
        { p with pmode := .deselected, ptr := ptr, ph := ph, moved := false, convst := c, lineLow := l } ∧
      (c = p.convst ∧ l = p.lineLow ∨
       (p.moved = false ∨ p.ph = 1#1) ∧ p.convst = .resultReady ∧ c = .noResult ∧ l = false) := by
  obtain ⟨ptr, ph, whole | ⟨short, ready, released⟩⟩ := Peer.csRise_cases n p
  · rw [Peer.convert_idle idle] at whole
    exact ⟨ptr, ph, _, _, whole, .inl ⟨rfl, rfl⟩⟩
  · rw [Peer.convert_idle idle] at short ready released
    refine ⟨ptr, ph, _, _, released, .inr ⟨?_, ready, rfl, rfl⟩⟩
    simpa [Peer.readCutShort, mode] using short

/-- Settles O30: by the address and byte the pointer is at, and the rise by `Peer.csRise_idle`. -/
theorem readDataBytes : Obligations.ReadDataBytes := by
  unfold Obligations.ReadDataBytes
  intro pp s mode known
  rw [State.received_eq, State.cross_peer]
  refine ⟨fun adc ready high => ?_, fun adc ready low => ?_, fun adc notReady high => ?_, fun adc notReady low => ?_,
    fun irq => ?_, fun mux => ?_, fun not0 not5 not6 => Peer.byte_read_undescribed mode not0 not5 not6 _ _, fun cs idle => ?_⟩
  · rw [Peer.byte_read_high known mode adc high, if_pos ready]
    exact ⟨rfl, rfl⟩
  · rw [Peer.byte_read_low_ready known mode adc low ready]
    exact ⟨rfl, Peer.adcdataReadDone_cases _ _⟩
  · rw [Peer.byte_read_high known mode adc high]
  · rw [Peer.byte_read_low_notReady known mode adc low notReady]
  · rw [Peer.byte_read_irq known mode irq]
    exact ⟨rfl, irqNow_bit0 _ _, _, rfl⟩
  · rw [Peer.byte_read_mux known mode mux]
    exact ⟨rfl, rfl⟩
  · rw [State.driveCs_rise cs]
    exact Peer.csRise_idle mode idle

/-- Settles O31: the three modes outside a command or data phase. -/
theorem bytesOutsideADataPhase : Obligations.BytesOutsideADataPhase := by
  unfold Obligations.BytesOutsideADataPhase
  intro o s
  rw [State.cross_peer]
  refine ⟨fun mode known => ?_, fun mode => ?_⟩
  · rcases mode with deselected | ignore
    · rw [Peer.byte_deselected deselected, Peer.settle_known known]
    · rw [Peer.byte_ignore ignore, Peer.settle_known known]
  · rw [Peer.byte_fastDone mode, Peer.settle_unknown, Peer.settle_sa]
    exact ⟨rfl, rfl⟩

end Sys2Proof.Machine
end

-- Proofs of the family of rules of the whole machine (spec/10_state.md, 43_slave_decode.md section 1, 60_exceptions.md): what a step
-- is (O50 to O53, O60) and what every step keeps (O54 to O59).
section
/-! Every step is one of six shared operations of the model, after the opportunity of the chip's own agents. A rule of the whole
machine is then shown for these: the events of an operation in progress, its acceptance, a byte from outside, a refusal. -/

namespace Sys2Proof.Machine

/-! ### What a step is (log 1, log 2) -/

/-- The operation's acceptance and then its events are the instruction (R5). -/
theorem exec_eq_complete {i : Instr} {s u : State} (h : s.accepted i = some u) : exec i s = .next u.complete := by
  cases i <;> simp only [State.accepted, Option.some.injEq, reduceCtorEq] at h <;> subst h <;> rfl

/-- Every instruction answers a next state (R29, R206). -/
theorem exec_answers (i : Instr) (s : State) : ∃ t, exec i s = .next t := by
  cases i <;> exact ⟨_, rfl⟩

/-- A request is refused or an operation of the block (R99, R101). -/
theorem decodeReq18_cases (w : BitVec 18) :
    (∃ sel a d, decodeReq18 w = .refused sel a d) ∨
      (∀ a, decodeReq18 w ≠ .construct a) ∧ ∀ s : State, ∃ u, s.accepted (decodeReq18 w) = some u := by
  obtain ⟨p, o, a, d, rfl⟩ : ∃ p o a d, w = encodeReq18 p o a d := ⟨_, _, _, _, (encodeReq18_fields w).symm⟩
  rw [decodeReq18_encodeReq18]
  split_ifs
  iterate 4 exact .inr ⟨nofun, fun s => ⟨_, rfl⟩⟩
  · exact .inl ⟨_, _, _, rfl⟩
  all_goals exact .inr ⟨nofun, fun s => ⟨_, rfl⟩⟩

/-- A command byte is no operation of the block. -/
theorem accepted_decodeCmd8 (c : Byte) (s : State) : s.accepted (decodeCmd8 c) = none := by
  rcases decodeCmd8_cases c with ⟨a, h⟩ | ⟨a, h⟩ | ⟨a, op, h⟩ | ⟨a, ra, h⟩ | ⟨a, ra, h⟩ | ⟨a, ra, h⟩ <;> rw [h] <;> rfl

@[simp] theorem State.taken_eventSteps (s : State) : s.taken.eventSteps = s.eventSteps := by
  rcases State.taken_cases s with h | h | h <;> rw [h]

/-- A step with an instruction at a port takes it up, the port cleared and the chip's agents given their opportunity. -/
theorem State.stepTakesUp_of_turn {i : Instr} {s : State} (h : s.turn = .instr i) : State.stepTakesUp i s.convTick.taken s := by
  refine ⟨fun whole => ?_, fun events u accepted => ?_⟩
  · have notBegun : s.convTick.taken.begun i = none := by
      rcases whole with off | none
      · simp [State.begun, off]
      · simp [State.begun, none]
    simp only [step, h, notBegun]
  · have begun : s.convTick.taken.begun i = some u := by simp [State.begun, events, accepted]
    simp only [step, h, begun]

theorem step_accepts {i : Instr} {s u : State} (h : s.turn = .instr i) (accepted : s.convTick.taken.accepted i = some u) :
    step s = .next u ∨ step s = .next u.complete := by
  obtain ⟨whole, event⟩ := State.stepTakesUp_of_turn h
  cases hs : s.eventSteps
  · exact .inr ((whole (.inl hs)).trans (exec_eq_complete accepted))
  · exact .inl (event hs u accepted)

theorem step_resume {s : State} (h : s.turn = .resume) (legal : s.seq.legal = true) : step s = .next s.convTick.resumed := by
  simp only [step, h, if_pos legal]

theorem State.taken_of_rst {s : State} (h : s.rst = true) : s.taken = { s with rst := false } := by
  rw [State.taken, if_pos h]

theorem State.taken_of_wireIn {s : State} (hr : s.rst = false) {c : Byte} (h : s.wireIn = some c) :
    s.taken = { s with wireIn := none } := by
  rw [State.taken, if_neg (by simp [hr]), if_pos (by simp [h])]

theorem State.taken_of_req {s : State} (hr : s.rst = false) (h : s.wireIn = none) : s.taken = { s with req := none } := by
  rw [State.taken, if_neg (by simp [hr]), if_neg (by simp [h])]

/-- What a step to `t` can be: a power-up of the chip; an operation goes on; a byte from outside crosses; an operation is accepted
(and, where steps are whole, run); a request is refused; nothing stands at a port. -/
inductive State.StepTo (s t : State) : Prop where
  | powerUp (up : s.chipPowerUp = true) (eq : t = s.powerUpChip)
  | resume (up : s.chipPowerUp = false) (rst : s.rst = false) (busy : s.seq ≠ .idle) (legal : s.seq.legal = true)
      (eq : t = s.convTick.resumed)
  | wire (up : s.chipPowerUp = false) (rst : s.rst = false) (idle : s.seq = .idle) (c o : Byte) (port : s.wireIn = some c)
      (eq : t = { s.convTick with wireIn := none }.cross o)
  | accept (up : s.chipPowerUp = false) (i : Instr) (u : State) (accepted : s.convTick.taken.accepted i = some u)
      (free : s.rst = true ∨ s.seq = .idle ∧ s.busy = false ∧ ∀ a, i ≠ .construct a)
      (eq : t = u ∨ t = u.run runFuel)
  | refuse (up : s.chipPowerUp = false) (rst : s.rst = false) (idle : s.seq = .idle) (free : s.busy = false)
      (eq : t = { s.convTick with req := none }.refuse)
  | quiet (up : s.chipPowerUp = false) (rst : s.rst = false) (idle : s.seq = .idle) (eq : t = s.convTick)

/-- Every step to a next state is one of these. -/
theorem step_to {s t : State} (h : step s = .next t) : s.StepTo t := by
  have next {u v : State} (hu : step s = .next u ∨ step s = .next v) : t = u ∨ t = v :=
    hu.imp (fun e => Host.Outcome.next.inj (h.symm.trans e)) (fun e => Host.Outcome.next.inj (h.symm.trans e))
  rcases State.turn_cases s with ⟨up, turn⟩ | ⟨up, rst, turn⟩ | ⟨up, rst, busy, turn⟩ | ⟨up, rst, idle, rest⟩
  · simp only [step, turn, Host.Outcome.next.injEq] at h
    exact .powerUp up h.symm
  · exact .accept up (.construct s.cfgAddr) (s.convTick.taken.acceptConstruct s.cfgAddr) rfl (.inl rst)
      (next (step_accepts turn rfl))
  · cases legal : s.seq.legal
    · simp [step, turn, legal] at h
    · simp only [step, turn, legal, if_true, Host.Outcome.next.injEq] at h
      exact .resume up rst busy legal h.symm
  · rcases rest with ⟨c, port, await, turn⟩ | ⟨c, port, mode, turn⟩ | ⟨w, noByte, port, free, turn⟩ | ⟨noByte, -, turn⟩
    · have taken : s.convTick.taken = { s.convTick with wireIn := none } := State.taken_of_wireIn rst port
      have run := (State.stepTakesUp_of_turn turn).1 (.inr (accepted_decodeCmd8 c _))
      rw [h, exec_decodeCmd8, taken, Host.Outcome.next.injEq] at run
      exact .wire up rst idle c c port run
    · simp only [step, turn, Host.Outcome.next.injEq] at h
      exact .wire up rst idle c c port h.symm
    · rcases decodeReq18_cases w with ⟨sel, a, d, refused⟩ | ⟨notConstruct, accepts⟩
      · have taken : s.convTick.taken = { s.convTick with req := none } := State.taken_of_req rst noByte
        have run := (State.stepTakesUp_of_turn turn).1 (.inr (by rw [refused]; rfl))
        rw [h, refused, exec_refused, taken, Host.Outcome.next.injEq] at run
        exact .refuse up rst idle free run
      · obtain ⟨u, accepted⟩ := accepts s.convTick.taken
        exact .accept up _ u accepted (.inr ⟨idle, free, notConstruct⟩) (next (step_accepts turn accepted))
    · simp only [step, turn, Host.Outcome.next.injEq] at h
      exact .quiet up rst idle h.symm

/-- A step from a position that some operation has answers a next state (log 16). -/
theorem step_answers {s : State} (legal : s.seq.legal = true) : ∃ t, step s = .next t := by
  have instr {i : Instr} (turn : s.turn = .instr i) : ∃ t, step s = .next t := by
    simp only [step, turn]
    cases s.convTick.taken.begun i with
    | some t => exact ⟨t, rfl⟩
    | none => exact exec_answers i _
  rcases State.turn_cases s with ⟨-, turn⟩ | ⟨-, -, turn⟩ | ⟨-, -, -, turn⟩ | ⟨-, -, -, ⟨c, -, -, turn⟩ | ⟨c, -, -, turn⟩ |
    ⟨w, -, -, -, turn⟩ | ⟨-, -, turn⟩⟩
  · exact ⟨s.powerUpChip, by simp only [step, turn]⟩
  · exact instr turn
  · exact ⟨_, step_resume turn legal⟩
  · exact instr turn
  · exact ⟨s.convTick.wireByte c, by simp only [step, turn]⟩
  · exact instr turn
  · exact ⟨s.convTick, by simp only [step, turn]⟩

/-! ### What the shared operations leave alone -/

/-! `State.exchanged`: the byte crosses and the sequencer moves on; the fields outside the buffers -/

@[simp] theorem State.exchanged_addrbits (op : Op) (k : Nat) (p : Prim) (i : Nat) (r : Byte) (s : State) :
    (s.exchanged op k p i r).addrbits = s.addrbits := by unfold State.exchanged; split <;> simp
@[simp] theorem State.exchanged_t8 (op : Op) (k : Nat) (p : Prim) (i : Nat) (r : Byte) (s : State) :
    (s.exchanged op k p i r).t8 = s.t8 := by unfold State.exchanged; split <;> simp
@[simp] theorem State.exchanged_t16 (op : Op) (k : Nat) (p : Prim) (i : Nat) (r : Byte) (s : State) :
    (s.exchanged op k p i r).t16 = s.t16 := by unfold State.exchanged; split <;> simp
@[simp] theorem State.exchanged_cs (op : Op) (k : Nat) (p : Prim) (i : Nat) (r : Byte) (s : State) :
    (s.exchanged op k p i r).cs = s.cs := by unfold State.exchanged; split <;> simp
@[simp] theorem State.exchanged_drdyPullup (op : Op) (k : Nat) (p : Prim) (i : Nat) (r : Byte) (s : State) :
    (s.exchanged op k p i r).drdyPullup = s.drdyPullup := by unfold State.exchanged; split <;> simp
@[simp] theorem State.exchanged_busy (op : Op) (k : Nat) (p : Prim) (i : Nat) (r : Byte) (s : State) :
    (s.exchanged op k p i r).busy = s.busy := by unfold State.exchanged; split <;> simp
@[simp] theorem State.exchanged_rspValid (op : Op) (k : Nat) (p : Prim) (i : Nat) (r : Byte) (s : State) :
    (s.exchanged op k p i r).rspValid = s.rspValid := by unfold State.exchanged; split <;> simp
@[simp] theorem State.exchanged_rspStatus (op : Op) (k : Nat) (p : Prim) (i : Nat) (r : Byte) (s : State) :
    (s.exchanged op k p i r).rspStatus = s.rspStatus := by unfold State.exchanged; split <;> simp
@[simp] theorem State.exchanged_rspData (op : Op) (k : Nat) (p : Prim) (i : Nat) (r : Byte) (s : State) :
    (s.exchanged op k p i r).rspData = s.rspData := by unfold State.exchanged; split <;> simp
@[simp] theorem State.exchanged_rspFaultInfo (op : Op) (k : Nat) (p : Prim) (i : Nat) (r : Byte) (s : State) :
    (s.exchanged op k p i r).rspFaultInfo = s.rspFaultInfo := by unfold State.exchanged; split <;> simp
@[simp] theorem State.exchanged_faulted (op : Op) (k : Nat) (p : Prim) (i : Nat) (r : Byte) (s : State) :
    (s.exchanged op k p i r).faulted = s.faulted := by unfold State.exchanged; split <;> simp
@[simp] theorem State.exchanged_argA (op : Op) (k : Nat) (p : Prim) (i : Nat) (r : Byte) (s : State) :
    (s.exchanged op k p i r).argA = s.argA := by unfold State.exchanged; split <;> simp
@[simp] theorem State.exchanged_argD (op : Op) (k : Nat) (p : Prim) (i : Nat) (r : Byte) (s : State) :
    (s.exchanged op k p i r).argD = s.argD := by unfold State.exchanged; split <;> simp
@[simp] theorem State.exchanged_xfers (op : Op) (k : Nat) (p : Prim) (i : Nat) (r : Byte) (s : State) :
    (s.exchanged op k p i r).xfers = s.xfers := by unfold State.exchanged; split <;> simp
@[simp] theorem State.exchanged_seq (op : Op) (k : Nat) (p : Prim) (i : Nat) (r : Byte) (s : State) :
    (s.exchanged op k p i r).seq = afterByte op k p i := by unfold State.exchanged; split <;> simp
@[simp] theorem State.exchanged_peer (op : Op) (k : Nat) (p : Prim) (i : Nat) (r : Byte) (s : State) :
    (s.exchanged op k p i r).peer = (s.peer.byte s.draws (s.bufByte (primBuf p) i)).2 := by unfold State.exchanged; split <;> simp
@[simp] theorem State.exchanged_trace (op : Op) (k : Nat) (p : Prim) (i : Nat) (r : Byte) (s : State) :
    (s.exchanged op k p i r).trace = s.trace ++ [.byte (s.bufByte (primBuf p) i) r] := by unfold State.exchanged; split <;> simp

/-- The buffer in use after a transport fault: unspecified from byte `i` on where the transfer captures (R202). -/
def State.spoiled (p : Prim) (i : Nat) (s : State) : State :=
  if primCaptures p then (s.spoil (primBuf p) i (primLen p - i)).drawn else s

/-- A transport fault reported (R202). -/
def State.faultReported (info : Nat) (s : State) : State :=
  { (s.drawn.respond statusTransportFault (Config.freeWord s.drawn.draws)).drawn with rspFaultInfo := info, faulted := true }

@[simp] theorem State.faultReported_peer (info : Nat) (s : State) : (s.faultReported info).peer = s.peer := rfl
@[simp] theorem State.faultReported_trace (info : Nat) (s : State) : (s.faultReported info).trace = s.trace := rfl
@[simp] theorem State.faultReported_cs (info : Nat) (s : State) : (s.faultReported info).cs = s.cs := rfl
@[simp] theorem State.faultReported_addrbits (info : Nat) (s : State) : (s.faultReported info).addrbits = s.addrbits := rfl
@[simp] theorem State.faultReported_drdyPullup (info : Nat) (s : State) : (s.faultReported info).drdyPullup = s.drdyPullup := rfl
@[simp] theorem State.faultReported_seq (info : Nat) (s : State) : (s.faultReported info).seq = .idle := rfl
@[simp] theorem State.faultReported_busy (info : Nat) (s : State) : (s.faultReported info).busy = false := rfl
@[simp] theorem State.faultReported_rspStatus (info : Nat) (s : State) : (s.faultReported info).rspStatus = statusTransportFault := rfl
@[simp] theorem State.faultReported_faulted (info : Nat) (s : State) : (s.faultReported info).faulted = true := rfl

/-- Taking a transport fault is three things: the buffer spoiled, chip-select driven to a free level, the fault reported. -/
theorem State.abort_eq (p : Prim) (i info : Nat) (s : State) :
    s.abort p i info = ((s.spoiled p i).driveCs (Config.freeBit (s.spoiled p i).draws)).faultReported info := rfl

theorem State.spoiled_spec (p : Prim) (i : Nat) (s : State) :
    ∃ x0 x1 x2 x3 x4 x5 n, s.spoiled p i =
      { s with buf10 := x0, buf20 := x1, buf21 := x2, buf30 := x3, buf31 := x4, buf32 := x5, draws := n } := by
  obtain ⟨x0, x1, x2, x3, x4, x5, h⟩ := State.spoil_spec (primBuf p) i (primLen p - i) s
  unfold State.spoiled
  split
  · rw [h]; exact ⟨_, _, _, _, _, _, _, rfl⟩
  · exact ⟨_, _, _, _, _, _, _, rfl⟩

@[simp] theorem State.spoiled_addrbits (p : Prim) (i : Nat) (s : State) : (s.spoiled p i).addrbits = s.addrbits := by
  obtain ⟨_, _, _, _, _, _, _, h⟩ := State.spoiled_spec p i s; rw [h]
@[simp] theorem State.spoiled_t8 (p : Prim) (i : Nat) (s : State) : (s.spoiled p i).t8 = s.t8 := by
  obtain ⟨_, _, _, _, _, _, _, h⟩ := State.spoiled_spec p i s; rw [h]
@[simp] theorem State.spoiled_t16 (p : Prim) (i : Nat) (s : State) : (s.spoiled p i).t16 = s.t16 := by
  obtain ⟨_, _, _, _, _, _, _, h⟩ := State.spoiled_spec p i s; rw [h]
@[simp] theorem State.spoiled_cs (p : Prim) (i : Nat) (s : State) : (s.spoiled p i).cs = s.cs := by
  obtain ⟨_, _, _, _, _, _, _, h⟩ := State.spoiled_spec p i s; rw [h]
@[simp] theorem State.spoiled_drdyPullup (p : Prim) (i : Nat) (s : State) : (s.spoiled p i).drdyPullup = s.drdyPullup := by
  obtain ⟨_, _, _, _, _, _, _, h⟩ := State.spoiled_spec p i s; rw [h]
@[simp] theorem State.spoiled_xfers (p : Prim) (i : Nat) (s : State) : (s.spoiled p i).xfers = s.xfers := by
  obtain ⟨_, _, _, _, _, _, _, h⟩ := State.spoiled_spec p i s; rw [h]
@[simp] theorem State.spoiled_peer (p : Prim) (i : Nat) (s : State) : (s.spoiled p i).peer = s.peer := by
  obtain ⟨_, _, _, _, _, _, _, h⟩ := State.spoiled_spec p i s; rw [h]
@[simp] theorem State.spoiled_trace (p : Prim) (i : Nat) (s : State) : (s.spoiled p i).trace = s.trace := by
  obtain ⟨_, _, _, _, _, _, _, h⟩ := State.spoiled_spec p i s; rw [h]

@[simp] theorem State.abort_addrbits (p : Prim) (i info : Nat) (s : State) : (s.abort p i info).addrbits = s.addrbits := by simp [State.abort_eq]
@[simp] theorem State.abort_drdyPullup (p : Prim) (i info : Nat) (s : State) : (s.abort p i info).drdyPullup = s.drdyPullup := by simp [State.abort_eq]
@[simp] theorem State.abort_seq (p : Prim) (i info : Nat) (s : State) : (s.abort p i info).seq = .idle := by simp [State.abort_eq]
@[simp] theorem State.abort_busy (p : Prim) (i info : Nat) (s : State) : (s.abort p i info).busy = false := by simp [State.abort_eq]
@[simp] theorem State.abort_rspStatus (p : Prim) (i info : Nat) (s : State) : (s.abort p i info).rspStatus = statusTransportFault := by simp [State.abort_eq]
@[simp] theorem State.abort_faulted (p : Prim) (i info : Nat) (s : State) : (s.abort p i info).faulted = true := by simp [State.abort_eq]

@[simp] theorem State.taken_peer (s : State) : s.taken.peer = s.peer := by
  rcases State.taken_cases s with h | h | h <;> rw [h]
@[simp] theorem State.taken_trace (s : State) : s.taken.trace = s.trace := by
  rcases State.taken_cases s with h | h | h <;> rw [h]
@[simp] theorem State.taken_addrbits (s : State) : s.taken.addrbits = s.addrbits := by
  rcases State.taken_cases s with h | h | h <;> rw [h]
@[simp] theorem State.taken_faulted (s : State) : s.taken.faulted = s.faulted := by
  rcases State.taken_cases s with h | h | h <;> rw [h]
@[simp] theorem State.taken_cs (s : State) : s.taken.cs = s.cs := by
  rcases State.taken_cases s with h | h | h <;> rw [h]
@[simp] theorem State.taken_drdyPullup (s : State) : s.taken.drdyPullup = s.drdyPullup := by
  rcases State.taken_cases s with h | h | h <;> rw [h]
@[simp] theorem State.taken_rspStatus (s : State) : s.taken.rspStatus = s.rspStatus := by
  rcases State.taken_cases s with h | h | h <;> rw [h]

/-! ### The record on the wire and the end of Unknown (O58, O59) -/

/-- `t` comes after `s` on the wire: the chip is the same one, the trace has gone on, and if the chip has left Unknown the new piece
holds a full-reset command byte of its address (00_scope.md section 6, 43_slave_decode.md R170). -/
structure State.Records (s t : State) : Prop where
  sa : t.peer.sa = s.peer.sa
  trace : ∃ ev, t.trace = s.trace ++ ev ∧
    (s.peer.unknown = true → t.peer.unknown = false → holdsFullReset s.peer.sa ev)

theorem State.Records.of_unknown_eq {s t : State} (ev : List WireEvent) (sa : t.peer.sa = s.peer.sa)
    (trace : t.trace = s.trace ++ ev) (unknown : t.peer.unknown = s.peer.unknown) : s.Records t :=
  ⟨sa, ev, trace, fun hs ht => absurd (hs.symm.trans (unknown.symm.trans ht)) (by decide)⟩

theorem State.Records.refl (s : State) : s.Records s := .of_unknown_eq [] rfl (List.append_nil _).symm rfl

/-- An update that reaches neither the chip nor the trace. -/
theorem State.Records.of_same {s t : State} (peer : t.peer = s.peer) (trace : t.trace = s.trace) : s.Records t :=
  .of_unknown_eq [] (by rw [peer]) (by rw [trace, List.append_nil]) (by rw [peer])

theorem State.Records.trans {s t u : State} (h : s.Records t) (g : t.Records u) : s.Records u := by
  obtain ⟨ev, trace, reset⟩ := h.trace
  obtain ⟨ev', trace', reset'⟩ := g.trace
  refine ⟨g.sa.trans h.sa, ev ++ ev', by rw [trace', trace, List.append_assoc], fun hs hu => ?_⟩
  cases ht : t.peer.unknown
  · obtain ⟨r, mem⟩ := reset hs ht
    exact ⟨r, List.mem_append_left _ mem⟩
  · obtain ⟨r, mem⟩ := reset' ht hu
    rw [h.sa] at mem
    exact ⟨r, List.mem_append_right _ mem⟩

theorem State.convTick_records (s : State) : s.Records s.convTick :=
  .of_unknown_eq [] (by simp) (by simp) (by simp)

theorem State.driveCs_records (l : Bool) (s : State) : s.Records (s.driveCs l) := by
  rcases State.driveCs_cases l s with ⟨-, h⟩ | ⟨-, -, h⟩ | ⟨-, -, h⟩ <;> rw [h]
  · exact .refl s
  · exact .of_unknown_eq [.csFall] rfl rfl rfl
  · exact .of_unknown_eq [.csRise] (by simp) (by simp) (by simp)

/-- A byte ends Unknown only as a full-reset command byte, which is then in the trace. -/
theorem State.crossWith_records (o r : Byte) (s : State) : s.Records (s.crossWith o r) := by
  obtain ⟨sa, -, leaves⟩ := Peer.byte_spec s.draws o s.peer
  refine ⟨sa, [.byte o r], rfl, fun hs ht => ⟨r, ?_⟩⟩
  rw [← eq_encode_of_decodeCmd8_fastReset (leaves hs ht)]
  exact List.mem_singleton.mpr rfl

theorem State.cross_records (o : Byte) (s : State) : s.Records (s.cross o) := State.crossWith_records o _ s

theorem State.exchanged_records (op : Op) (k : Nat) (p : Prim) (i : Nat) (r : Byte) (s : State) :
    s.Records (s.exchanged op k p i r) :=
  (State.crossWith_records (s.bufByte (primBuf p) i) r s).trans (.of_same (by simp) (by simp))

theorem State.abort_records (p : Prim) (i info : Nat) (s : State) : s.Records (s.abort p i info) := by
  rw [State.abort_eq]
  exact .trans (t := s.spoiled p i) (.of_same (by simp) (by simp)) ((State.driveCs_records _ _).trans
    (.of_same (State.faultReported_peer ..) (State.faultReported_trace ..)))

theorem State.tick_records (s : State) : s.Records s.tick.2 := by
  have answered : s.Records s.convTick.answered := s.convTick_records.trans (.of_same rfl rfl)
  rcases State.tick_cases s with h | ⟨op, k, -, h⟩ | ⟨op, k, -, h⟩ | ⟨op, k, -, h⟩ | ⟨op, k, p, -, -, h⟩ |
    ⟨op, k, i, p, -, -, ⟨r, h⟩ | h | ⟨info, h⟩ | ⟨info, h⟩⟩ | ⟨op, k, p, -, -, h⟩ <;> rw [h]
  · exact .refl s
  · exact (State.driveCs_records true s).trans (.of_same rfl rfl)
  · exact .of_unknown_eq [.drdySample s.drdyLevel] rfl rfl rfl
  · obtain ⟨d, o, e⟩ := State.deliver_spec op s
    rw [e]
    exact .of_same rfl rfl
  · exact .trans (t := s.load p) (.of_same (by simp) (by simp)) ((State.driveCs_records false _).trans (.of_same rfl rfl))
  · exact answered.trans (State.exchanged_records op k p i r _)
  · exact answered
  · exact answered.trans (State.abort_records p i info _)
  · exact answered.trans ((State.cross_records _ _).trans (State.abort_records p i info _))
  · exact (State.driveCs_records true s).trans (.of_same (by simp [State.closeFrame]) (by simp [State.closeFrame]))

/-- What relates a state to the next by every event relates it to the end of a run of events. -/
theorem State.run_records (f : Nat) (s : State) : s.Records (s.run f) :=
  State.run_keeps (P := s.Records) (fun t h => h.trans t.tick_records) f (.refl s)

/-- Every step but a power-up of the chip goes on on the wire. -/
theorem step_records {s t : State} (h : step s = .next t) (up : s.chipPowerUp = false) : s.Records t := by
  cases step_to h with
  | powerUp h => exact absurd (up.symm.trans h) (by decide)
  | resume _ _ _ _ eq =>
    rw [eq]
    exact State.resumed_keeps (P := s.Records) (fun t h => h.trans t.tick_records) s.convTick_records
  | wire _ _ _ c o _ eq =>
    rw [eq]
    exact s.convTick_records.trans
      (.trans (t := { s.convTick with wireIn := none }) (.of_same rfl rfl) (State.cross_records o _))
  | accept _ i u accepted _ eq =>
    have hu : s.Records u := by
      obtain ⟨op, ph, a, d, c, e, -, -, -⟩ := State.accepted_spec accepted
      exact s.convTick_records.trans (.of_same (by rw [e]; simp) (by rw [e]; simp))
    rcases eq with rfl | rfl
    · exact hu
    · exact hu.trans (State.run_records _ u)
  | refuse _ _ _ _ eq => rw [eq]; exact s.convTick_records.trans (.of_same rfl rfl)
  | quiet _ _ _ eq => rw [eq]; exact s.convTick_records

/-- Settles O58: every step but a power-up goes on on the wire. -/
theorem unknownEndsOnlyByFullReset : Obligations.UnknownEndsOnlyByFullReset := by
  unfold Obligations.UnknownEndsOnlyByFullReset
  intro s t h up unknown known
  obtain ⟨ev, trace, reset⟩ := (step_records h up).trace
  exact ⟨ev, trace, reset unknown known⟩

/-- Settles O59: a power-up of the chip leaves the trace alone, and every other step goes on on the wire. -/
theorem traceOnlyGrows : Obligations.TraceOnlyGrows := by
  unfold Obligations.TraceOnlyGrows
  intro s t h
  cases up : s.chipPowerUp
  · obtain ⟨ev, trace, -⟩ := (step_records h up).trace
    exact ⟨ev, trace⟩
  · cases step_to h with
    | powerUp _ eq => exact ⟨[], by rw [eq, List.append_nil]; rfl⟩
    | resume down | wire down | accept down | refuse down | quiet down => exact absurd (up.symm.trans down) (by decide)

end Sys2Proof.Machine
end

-- Proofs of the family of rules of the whole machine, continued: the invariant (O54, O55), ADDRBITS (O56) and FAULTED (O57).
section
/-! The invariant has two halves: the block's, which depends on seven of its registers and lines, and the chip's at the present
level of chip-select. Each shared operation is shown to keep each half. -/

namespace Sys2Proof.Machine

/-! ### The chip's half of the invariant (10_state.md R40, R41) -/

/-- The chip's part of the invariant, chip-select being at level `cs`. -/
structure Peer.Fits (cs : Bool) (p : Peer) : Prop where
  selected : p.pmode = .deselected ↔ cs = true
  line : p.lineFollows
  ph : p.phLegal

theorem Peer.Fits.settle_convert {cs : Bool} {p : Peer} (h : p.Fits cs) (n m : Nat) : ((p.convert n).settle m).Fits cs :=
  ⟨by simpa using h.selected, Peer.lineFollows_settle (Peer.lineFollows_convert h.line),
    Peer.phLegal_settle (Peer.phLegal_convert h.ph)⟩

theorem Peer.Fits.byte {cs : Bool} {p : Peer} (h : p.Fits cs) (n : Nat) (o : Byte) : (p.byte n o).2.Fits cs :=
  ⟨(Peer.byte_spec n o p).2.1.trans h.selected, Peer.lineFollows_byte h.line, Peer.phLegal_byte h.ph⟩

theorem Peer.Fits.powerUp {cs : Bool} {p : Peer} (h : p.Fits cs) (n : Nat) : (p.powerUp n cs).Fits cs := by
  refine ⟨?_, Peer.lineFollows_powerUp n cs p, Peer.phLegal_powerUp n cs p⟩
  rw [Peer.powerUp_pmode]
  cases cs
  · exact h.selected
  · exact ⟨fun _ => rfl, fun _ => rfl⟩

theorem State.driveCs_fits {s : State} (h : s.peer.Fits s.cs) (l : Bool) : (s.driveCs l).peer.Fits l := by
  rcases State.driveCs_cases l s with ⟨same, eq⟩ | ⟨-, rfl, eq⟩ | ⟨-, rfl, eq⟩ <;> rw [eq]
  · rwa [same] at h
  · exact ⟨by simp, Peer.lineFollows_csFall h.line, Peer.phLegal_csFall _⟩
  · exact ⟨by simp, Peer.lineFollows_csRise h.line, Peer.phLegal_csRise _ _⟩

/-! ### The sequencer's positions (10_state.md R30) -/

/-- The length of a step's transaction does not depend on the operands. -/
theorem primAt_len {op : Op} {k : Nat} {a : BitVec 6} {d t8 : Byte} {p : Prim} (h : primAt op k a d t8 = some p) :
    ∃ q, primAt op k 0#6 0#8 0#8 = some q ∧ primLen q = primLen p := by
  cases op <;> rcases k with _ | _ | _ | _ | k <;> simp only [primAt, resetStep, Option.some.injEq, reduceCtorEq] at h <;>
    subst h <;> exact ⟨_, rfl, rfl⟩

theorem primLen_pos (p : Prim) : 0 < primLen p := by cases p <;> exact Nat.succ_pos _

section positions
variable {op : Op} {k : Nat} {a : BitVec 6} {d t8 : Byte} {p : Prim} (h : primAt op k a d t8 = some p)
include h

theorem legal_assert : (SeqPos.pos op k .assert).legal = true := by
  obtain ⟨q, hq, -⟩ := primAt_len h
  simp [SeqPos.legal, hq]

theorem legal_deassert : (SeqPos.pos op k .deassert).legal = true := by
  obtain ⟨q, hq, -⟩ := primAt_len h
  simp [SeqPos.legal, hq]

theorem legal_byte (i : Nat) : (SeqPos.pos op k (.byte i)).legal = decide (i < primLen p) := by
  obtain ⟨q, hq, hl⟩ := primAt_len h
  simp [SeqPos.legal, hq, hl]

/-- After a byte comes the next byte, or the end of the transaction; chip-select is low at both. -/
theorem afterByte_legal (i : Nat) :
    (afterByte op k p i).legal = true ∧ (afterByte op k p i).insideFrame = true ∧ afterByte op k p i ≠ .idle := by
  unfold afterByte
  split
  · rename_i hi
    exact ⟨by rw [legal_byte h]; exact decide_eq_true hi, rfl, nofun⟩
  · exact ⟨legal_deassert h, rfl, nofun⟩

/-- After a step comes the next step, or the response; neither is inside a transaction. -/
theorem afterStep_legal :
    (afterStep op k).legal = true ∧ (afterStep op k).insideFrame = false ∧ afterStep op k ≠ .idle := by
  obtain ⟨q, hq, -⟩ := primAt_len h
  rcases afterStep_cases op k with ⟨more, eq⟩ | ⟨last, eq⟩ <;> rw [eq]
  · exact ⟨more, rfl, nofun⟩
  · exact ⟨by simp_all [SeqPos.legal], rfl, nofun⟩

end positions

/-! ### The invariant (O54, O55) -/

/-- The invariant from its halves, at a state where an operation is in progress. -/
theorem State.Inv.of_busy {s : State} (busy : s.busy = true) (going : s.seq ≠ .idle) (legal : s.seq.legal = true)
    (rsp : s.rspValid = false) (addr : s.addrbits.extractLsb' 0 6 = 0#6) (status : s.rspStatus ≠ 3#2)
    (pullup : s.drdyPullup = true) (frame : s.seq.insideFrame = true → s.cs = false) (chip : s.peer.Fits s.cs) : s.Inv where
  busy_iff := ⟨fun _ => going, fun _ => busy⟩
  seq_legal := legal
  busy_rsp := fun _ => rsp
  addr_low := addr
  status_legal := status
  pullup := pullup
  selected_iff := chip.selected
  frame_low := frame
  line := chip.line
  ph := chip.ph

/-- The invariant from its halves, at an idle state. -/
theorem State.Inv.of_idle {s : State} (busy : s.busy = false) (idle : s.seq = .idle) (addr : s.addrbits.extractLsb' 0 6 = 0#6)
    (status : s.rspStatus ≠ 3#2) (pullup : s.drdyPullup = true) (chip : s.peer.Fits s.cs) : s.Inv where
  busy_iff := by simp [busy, idle]
  seq_legal := by rw [idle]; rfl
  busy_rsp := by simp [busy]
  addr_low := addr
  status_legal := status
  pullup := pullup
  selected_iff := chip.selected
  frame_low := by rw [idle]; nofun
  line := chip.line
  ph := chip.ph

theorem State.Inv.chip {s : State} (h : s.Inv) : s.peer.Fits s.cs := ⟨h.selected_iff, h.line, h.ph⟩

/-- A step that leaves the block's half alone needs only the chip's. -/
theorem State.Inv.of_chip {s t : State} (h : s.Inv) (busy : t.busy = s.busy) (seq : t.seq = s.seq) (rsp : t.rspValid = s.rspValid)
    (addr : t.addrbits = s.addrbits) (status : t.rspStatus = s.rspStatus) (pullup : t.drdyPullup = s.drdyPullup)
    (cs : t.cs = s.cs) (chip : t.peer.Fits s.cs) : t.Inv where
  busy_iff := by rw [busy, seq]; exact h.busy_iff
  seq_legal := by rw [seq]; exact h.seq_legal
  busy_rsp := by rw [busy, rsp]; exact h.busy_rsp
  addr_low := by rw [addr]; exact h.addr_low
  status_legal := by rw [status]; exact h.status_legal
  pullup := by rw [pullup]; exact h.pullup
  selected_iff := by rw [cs]; exact chip.selected
  frame_low := by rw [seq, cs]; exact h.frame_low
  line := chip.line
  ph := chip.ph

theorem State.Inv.convTick {s : State} (h : s.Inv) : s.convTick.Inv :=
  h.of_chip rfl rfl rfl rfl rfl rfl rfl (h.chip.settle_convert _ _)

theorem State.Inv.answered {s : State} (h : s.Inv) : s.answered.Inv := h.of_chip rfl rfl rfl rfl rfl rfl rfl h.chip

theorem State.Inv.portCleared {s : State} (h : s.Inv) (port : Option Byte) : State.Inv { s with wireIn := port } :=
  h.of_chip rfl rfl rfl rfl rfl rfl rfl h.chip

theorem State.Inv.cross {s : State} (h : s.Inv) (o : Byte) : (s.cross o).Inv :=
  h.of_chip rfl rfl rfl rfl rfl rfl rfl (h.chip.byte _ _)

/-- Taking a transport fault ends the operation with a status the block has. -/
theorem State.Inv.abort {s : State} (h : s.Inv) (p : Prim) (i info : Nat) : (s.abort p i info).Inv := by
  refine .of_idle (State.abort_busy ..) (State.abort_seq ..) ?_ ?_ ?_ ?_
  · simpa using h.addr_low
  · rw [State.abort_rspStatus]; decide
  · simpa using h.pullup
  · rw [State.abort_eq, State.faultReported_peer, State.faultReported_cs, State.driveCs_cs]
    exact State.driveCs_fits (by simpa using h.chip) _

/-- An operation in progress, from the invariant: it is busy, with no valid response, at a position it has. -/
theorem State.Inv.going {s : State} (h : s.Inv) {op : Op} {k : Nat} {ph : Phase} (seq : s.seq = .pos op k ph) :
    s.busy = true ∧ s.rspValid = false := by
  have busy : s.busy = true := h.busy_iff.mpr (by rw [seq]; nofun)
  exact ⟨busy, h.busy_rsp busy⟩

theorem addrBitsOf_low (a : DevAddr) : (addrBitsOf a).extractLsb' 0 6 = 0#6 := by revert a; decide

/-- Every event of an operation keeps the invariant. -/
theorem State.Inv.tick {s : State} (h : s.Inv) : s.tick.2.Inv := by
  rcases State.tick_cases s with e | ⟨op, k, seq, e⟩ | ⟨op, k, seq, e⟩ | ⟨op, k, seq, e⟩ | ⟨op, k, p, seq, hp, e⟩ |
    ⟨op, k, i, p, seq, hp, ⟨r, e⟩ | e | ⟨info, e⟩ | ⟨info, e⟩⟩ | ⟨op, k, p, seq, hp, e⟩ <;> rw [e]
  · exact h
  · obtain ⟨busy, rsp⟩ := h.going seq
    refine .of_busy ?_ nofun rfl ?_ (addrBitsOf_low _) ?_ rfl nofun ?_
    · simpa [State.constructInit] using busy
    · simpa [State.constructInit] using rsp
    · simpa [State.constructInit] using h.status_legal
    · simpa [State.constructInit] using State.driveCs_fits h.chip true
  · obtain ⟨busy, rsp⟩ := h.going seq
    exact .of_busy busy nofun rfl rsp h.addr_low h.status_legal h.pullup nofun h.chip
  · obtain ⟨v, o, eq⟩ := State.deliver_spec op s
    rw [eq]
    exact .of_idle rfl rfl h.addr_low (show statusOk ≠ 3#2 by decide) h.pullup h.chip
  · obtain ⟨busy, rsp⟩ := h.going seq
    refine .of_busy ?_ nofun ?_ ?_ ?_ ?_ ?_ ?_ ?_
    · simpa [State.openFrame] using busy
    · exact (legal_byte hp 0).trans (decide_eq_true (primLen_pos p))
    · simpa [State.openFrame] using rsp
    · simpa [State.openFrame] using h.addr_low
    · simpa [State.openFrame] using h.status_legal
    · simpa [State.openFrame] using h.pullup
    · simp [State.openFrame]
    · simpa [State.openFrame] using State.driveCs_fits (s := s.load p) (by simpa using h.chip) false
  · obtain ⟨legal, inside, notIdle⟩ := afterByte_legal hp i
    obtain ⟨busy, rsp⟩ := h.going seq
    refine .of_busy ?_ ?_ ?_ ?_ ?_ ?_ ?_ (fun _ => ?_) ?_
    · simpa using busy
    · simpa using notIdle
    · simpa using legal
    · simpa using rsp
    · simpa using h.addr_low
    · simpa using h.status_legal
    · simpa using h.pullup
    · simpa using h.frame_low (by rw [seq]; rfl)
    · simpa using (h.chip.settle_convert s.draws s.draws).byte _ _
  · exact h.convTick.answered
  · exact h.convTick.answered.abort p i info
  · exact (h.convTick.answered.cross _).abort p i info
  · obtain ⟨legal, outside, notIdle⟩ := afterStep_legal hp
    obtain ⟨busy, rsp⟩ := h.going seq
    refine .of_busy ?_ notIdle legal ?_ ?_ ?_ ?_ (fun inside => ?_) ?_
    · simpa [State.closeFrame] using busy
    · simpa [State.closeFrame] using rsp
    · simpa [State.closeFrame] using h.addr_low
    · simpa [State.closeFrame] using h.status_legal
    · simpa [State.closeFrame] using h.pullup
    · exact absurd (inside.symm.trans outside) (by decide)
    · simpa [State.closeFrame] using State.driveCs_fits h.chip true

/-- The acceptance of an operation keeps the invariant, over whatever was in progress (60_exceptions.md R210). -/
theorem State.Inv.accepted {s u : State} (h : s.Inv) {i : Instr} (accepted : s.accepted i = some u) : u.Inv := by
  obtain ⟨op, ph, a, d, c, rfl, legal, outside, -⟩ := State.accepted_spec accepted
  exact .of_busy rfl nofun legal rfl h.addr_low h.status_legal h.pullup
    (fun inside => absurd (inside.symm.trans outside) (by decide)) h.chip

theorem State.Inv.taken {s : State} (h : s.Inv) : s.taken.Inv := by
  rcases State.taken_cases s with e | e | e <;> rw [e] <;> exact h.of_chip rfl rfl rfl rfl rfl rfl rfl h.chip

/-- Settles O55: SEQ is at a position some operation has, so the step answers; each of the operations a step can be keeps the
invariant. -/
theorem stepKeepsInvariant : Obligations.StepKeepsInvariant := by
  unfold Obligations.StepKeepsInvariant
  intro s h
  obtain ⟨t, next⟩ := step_answers h.seq_legal
  refine ⟨t, next, ?_⟩
  cases step_to next with
  | powerUp _ eq => rw [eq]; exact h.of_chip rfl rfl rfl rfl rfl rfl rfl (h.chip.powerUp _)
  | resume _ _ _ _ eq => rw [eq]; exact State.resumed_keeps (fun _ => State.Inv.tick) h.convTick
  | wire _ _ _ c o _ eq =>
    rw [eq]
    exact (h.convTick.portCleared none).cross o
  | accept _ i u accepted _ eq =>
    have hu : u.Inv := h.convTick.taken.accepted accepted
    rcases eq with rfl | rfl
    · exact hu
    · exact State.run_keeps (fun _ => State.Inv.tick) _ hu
  | refuse _ _ idle free eq => rw [eq]; exact .of_idle free idle h.addr_low (show statusRefused ≠ 3#2 by decide) h.pullup h.convTick.chip
  | quiet _ _ _ eq => rw [eq]; exact h.convTick

/-- Settles O54: R44's state is at the first transaction of construction's RESET, chip-select high, the chip at its defaults. -/
theorem invariantAtReset : Obligations.InvariantAtReset := by
  unfold Obligations.InvariantAtReset
  have addr : (Config.deviceAddress ++ 0#6).extractLsb' 0 6 = 0#6 := BitVec.extractLsb'_append_eq_right
  exact .of_busy rfl nofun rfl rfl addr (by decide) rfl nofun
    ⟨⟨fun _ => rfl, fun _ => rfl⟩, fun _ => ⟨nofun, fun _ => rfl⟩, Peer.phLegal_of_zero rfl⟩

/-! ### ADDRBITS (O56) -/

/-- The sequencer is not at construction's first position (R140: where the address bits are stored). -/
def State.NotInit (s : State) : Prop := ∀ op k, s.seq ≠ .pos op k .init

theorem afterByte_ne_init (op : Op) (k : Nat) (p : Prim) (i : Nat) (op' : Op) (k' : Nat) :
    afterByte op k p i ≠ .pos op' k' .init := by
  unfold afterByte; split <;> nofun

theorem afterStep_ne_init (op : Op) (k : Nat) (op' : Op) (k' : Nat) : afterStep op k ≠ .pos op' k' .init := by
  unfold afterStep; split <;> nofun

/-- No event but construction's first writes the address bits, and none leads back to that one. -/
theorem State.tick_addrbits {s : State} (h : s.NotInit) : s.tick.2.NotInit ∧ s.tick.2.addrbits = s.addrbits := by
  rcases State.tick_cases s with e | ⟨op, k, seq, e⟩ | ⟨op, k, -, e⟩ | ⟨op, k, -, e⟩ | ⟨op, k, p, -, -, e⟩ |
    ⟨op, k, i, p, -, -, ⟨r, e⟩ | e | ⟨info, e⟩ | ⟨info, e⟩⟩ | ⟨op, k, p, -, -, e⟩ <;> rw [e]
  · exact ⟨h, rfl⟩
  · exact absurd seq (h op k)
  · exact ⟨nofun, rfl⟩
  · obtain ⟨d, o, eq⟩ := State.deliver_spec op s
    rw [eq]
    exact ⟨nofun, rfl⟩
  · exact ⟨nofun, by simp [State.openFrame]⟩
  · refine ⟨fun op' k' => ?_, by simp⟩
    rw [State.exchanged_seq]
    exact afterByte_ne_init op k p i op' k'
  · exact ⟨h, rfl⟩
  · exact ⟨fun op' k' => by rw [State.abort_seq]; nofun, by simp⟩
  · exact ⟨fun op' k' => by rw [State.abort_seq]; nofun, by simp⟩
  · exact ⟨afterStep_ne_init op k, by simp [State.closeFrame]⟩

theorem State.resumed_addrbits {s : State} (h : s.NotInit) : s.resumed.addrbits = s.addrbits :=
  (State.resumed_keeps (P := fun t => t.NotInit ∧ t.addrbits = s.addrbits)
    (fun _ ht => ⟨(State.tick_addrbits ht.1).1, (State.tick_addrbits ht.1).2.trans ht.2⟩) ⟨h, rfl⟩).2

theorem State.run_addrbits {s : State} (f : Nat) (h : s.NotInit) : (s.run f).addrbits = s.addrbits :=
  (State.run_keeps (P := fun t => t.NotInit ∧ t.addrbits = s.addrbits)
    (fun _ ht => ⟨(State.tick_addrbits ht.1).1, (State.tick_addrbits ht.1).2.trans ht.2⟩) f ⟨h, rfl⟩).2

/-- The only position of phase `init` is construction's first (R30). -/
theorem State.notInit_of_legal {s : State} (legal : s.seq.legal = true) (h : s.seq ≠ .pos .construct 0 .init) : s.NotInit := by
  intro op k seq
  rw [seq] at legal h
  simp only [SeqPos.legal, Bool.and_eq_true, beq_iff_eq] at legal
  obtain ⟨rfl, rfl⟩ := legal
  exact h rfl

/-- An operation other than construction starts elsewhere. -/
theorem State.accepted_notInit {i : Instr} {s u : State} (accepted : s.accepted i = some u) (h : ∀ a, i ≠ .construct a) :
    u.NotInit := by
  cases i <;> simp only [State.accepted, Option.some.injEq, reduceCtorEq] at accepted <;> subst accepted
  case construct a => exact absurd rfl (h a)
  all_goals nofun

theorem State.accepted_addrbits {i : Instr} {s u : State} (accepted : s.accepted i = some u) : u.addrbits = s.addrbits := by
  obtain ⟨op, ph, a, d, c, rfl, -, -, -⟩ := State.accepted_spec accepted
  rfl

/-- Settles O56: the chip's address by the record on the wire, the address bits by the events of an operation. -/
theorem addressBitsOnlyByConstruction : Obligations.AddressBitsOnlyByConstruction := by
  unfold Obligations.AddressBitsOnlyByConstruction
  intro s t next
  cases step_to next with
  | powerUp _ eq => rw [eq]; exact ⟨rfl, fun _ _ => rfl⟩
  | resume up _ _ legal eq =>
    refine ⟨(step_records next up).sa, fun _ notFirst => ?_⟩
    have going : s.convTick.NotInit := State.notInit_of_legal (s := s) legal notFirst
    rw [eq, State.resumed_addrbits going]
    rfl
  | wire up _ _ c o _ eq => exact ⟨(step_records next up).sa, fun _ _ => by rw [eq]; rfl⟩
  | accept up i u accepted free eq =>
    refine ⟨(step_records next up).sa, fun rst _ => ?_⟩
    have notConstruct : ∀ a, i ≠ .construct a := by
      rcases free with h | ⟨-, -, h⟩
      · exact absurd (rst.symm.trans h) (by decide)
      · exact h
    have hu : u.addrbits = s.addrbits := by rw [State.accepted_addrbits accepted]; simp
    rcases eq with rfl | rfl
    · exact hu
    · rw [State.run_addrbits _ (State.accepted_notInit accepted notConstruct), hu]
  | refuse up _ _ _ eq => exact ⟨(step_records next up).sa, fun _ _ => by rw [eq]; rfl⟩
  | quiet up _ _ eq => exact ⟨(step_records next up).sa, fun _ _ => by rw [eq]; rfl⟩

/-! ### FAULTED (O57) -/

/-- From `s` on FAULTED has not been cleared, and if it is new, the operation has just ended in a transport fault (R33, R202). -/
structure State.FaultKept (s t : State) : Prop where
  kept : s.faulted = true → t.faulted = true
  new : s.faulted = false → t.faulted = true → t.rspStatus = statusTransportFault ∧ t.seq = .idle

/-- An event that does not touch FAULTED keeps what the events before it have, unless it follows a fault. -/
theorem State.FaultKept.of_faulted_eq {s t u : State} (h : s.FaultKept t) (eq : u.faulted = t.faulted) (going : t.seq ≠ .idle) :
    s.FaultKept u :=
  ⟨fun hs => eq.trans (h.kept hs), fun hs hu => absurd (h.new hs (eq.symm.trans hu)).2 going⟩

theorem State.FaultKept.tick {s t : State} (h : s.FaultKept t) : s.FaultKept t.tick.2 := by
  have aborted (u : State) (p : Prim) (i info : Nat) : s.FaultKept (u.abort p i info) := by
    exact ⟨fun _ => State.abort_faulted .., fun _ _ => ⟨State.abort_rspStatus .., State.abort_seq ..⟩⟩
  rcases State.tick_cases t with e | ⟨op, k, seq, e⟩ | ⟨op, k, seq, e⟩ | ⟨op, k, seq, e⟩ | ⟨op, k, p, seq, -, e⟩ |
    ⟨op, k, i, p, seq, -, ⟨r, e⟩ | e | ⟨info, e⟩ | ⟨info, e⟩⟩ | ⟨op, k, p, seq, -, e⟩ <;> rw [e]
  · exact h
  · exact h.of_faulted_eq (by simp [State.constructInit]) (by rw [seq]; nofun)
  · exact h.of_faulted_eq rfl (by rw [seq]; nofun)
  · obtain ⟨d, o, eq⟩ := State.deliver_spec op t
    exact h.of_faulted_eq (by rw [eq]; rfl) (by rw [seq]; nofun)
  · exact h.of_faulted_eq (by simp [State.openFrame]) (by rw [seq]; nofun)
  · exact h.of_faulted_eq (by simp) (by rw [seq]; nofun)
  · exact h.of_faulted_eq rfl (by rw [seq]; nofun)
  · exact aborted _ p i info
  · exact aborted _ p i info
  · exact h.of_faulted_eq (by simp [State.closeFrame]) (by rw [seq]; nofun)

theorem State.FaultKept.start {s t : State} (eq : t.faulted = s.faulted) : s.FaultKept t :=
  ⟨fun hs => eq.trans hs, fun hs ht => absurd (hs.symm.trans (eq.symm.trans ht)) (by decide)⟩

theorem step_faultKept {s t : State} (next : step s = .next t) : s.FaultKept t := by
  cases step_to next with
  | powerUp _ eq => rw [eq]; exact .start rfl
  | resume _ _ _ _ eq => rw [eq]; exact State.resumed_keeps (P := s.FaultKept) (fun _ => State.FaultKept.tick) (.start rfl)
  | wire _ _ _ c o _ eq => rw [eq]; exact .start rfl
  | accept _ i u accepted _ eq =>
    have hu : s.FaultKept u := by
      obtain ⟨op, ph, a, d, c, rfl, -, -, -⟩ := State.accepted_spec accepted
      exact .start (by simp)
    rcases eq with rfl | rfl
    · exact hu
    · exact State.run_keeps (P := s.FaultKept) (fun _ => State.FaultKept.tick) _ hu
  | refuse _ _ _ _ eq => rw [eq]; exact .start rfl
  | quiet _ _ _ eq => rw [eq]; exact .start rfl

/-- Settles O57: the one event that touches FAULTED is the taking of a transport fault, which ends the operation. -/
theorem faultedStaysSet : Obligations.FaultedStaysSet := by
  unfold Obligations.FaultedStaysSet
  intro s t next
  obtain ⟨kept, new⟩ := step_faultKept next
  exact ⟨kept, fun hs ht => (new hs ht).1⟩

end Sys2Proof.Machine
end

-- Proofs of the operations' family (spec/40_primitives.md, 41_public_ops.md): the whole next state of every operation (O8 to O17)
-- and the expansions into primitives (O13, O15).
section
/-! An operation whose exchanges the transport completes is its acceptance, its transactions one after the other (`State.framed`),
and its response. The statements then only name what each transaction leaves. -/

namespace Sys2Proof.Machine

/-! ### Command bytes as the statements write them (R91, R92, R97) -/

theorem regByte_write (b : Byte) (ra : RegAddr) : regByte b ra xtWrite = b ||| (ra.setWidth 8 <<< 2) ||| 0b10#8 := rfl
theorem regByte_read (b : Byte) (ra : RegAddr) : regByte b ra xtRead = b ||| (ra.setWidth 8 <<< 2) ||| 0b11#8 := rfl
theorem fastByte_reset (b : Byte) : fastByte b opReset = b ||| 0x38#8 := rfl
theorem fastByte_start (b : Byte) : fastByte b opStart = b ||| 0x28#8 := rfl

theorem regByte_readIrq (b : Byte) : regByte b raIrq xtRead = b ||| 0x17#8 := BitVec.or_assoc b _ _
theorem regByte_writeIrq (b : Byte) : regByte b raIrq xtWrite = b ||| 0x16#8 := BitVec.or_assoc b _ _
theorem regByte_writeMux (b : Byte) : regByte b raMux xtWrite = b ||| 0x1A#8 := BitVec.or_assoc b _ _
theorem regByte_readAdcdata (b : Byte) : regByte b raAdcdata xtRead = b ||| 0x03#8 := BitVec.or_assoc b _ _

theorem muxValue_eq (ch : BitVec 4) : muxValue ch = ch ++ 0b1000#4 := by revert ch; decide

/-- An operand held in a request's six-bit field is the operand (R96). -/
theorem argLow_setWidth (x : BitVec 4) : argLow (x.setWidth 6) = x := by revert x; decide

/-! ### Operations as their transactions -/

theorem State.framed_accept (p : Prim) (op : Op) (ph : Phase) (a : BitVec 6) (d : Byte) (s : State) :
    (s.accept op ph a d).framed p = (s.framed p).accept op ph a d := by cases p <;> rfl

/-- After `k` exchanges the `i`-th from there is the `k + i`-th from here. -/
theorem State.heard_drop {s t : State} {k : Nat} (h : t.xfers = s.xfers.drop k) (i : Nat) (x : Byte) :
    t.heard i x = s.heard (k + i) x := by
  simp [State.heard, h]

/-- An operation of one transaction: the transaction and the response (40_primitives.md R120). -/
theorem State.complete_single {op : Op} {p : Prim} {s : State} (seq : s.seq = .pos op 0 .assert) (hp : s.prim op 0 = some p)
    (last : afterStep op 0 = .pos op 0 .respond) (hx : s.transportCompletes (primLen p)) :
    s.complete = (s.framed p).deliver op := by
  have len : primLen p ≤ 3 := by cases p <;> simp [primLen]
  rw [State.complete, show runFuel = primLen p + 2 + (13 - primLen p + 1) from by unfold runFuel; omega,
    State.run_frame _ seq hp hx, last, State.run_respond]

theorem exec_fastcmd {op : FastOp} {s : State} (hx : s.transportCompletes 1) :
    exec (.fastcmd op) s = .next (((s.framed (.fastcmd op)).accept .fastcmd .assert op 0#8).respond statusOk 0#32) := by
  rw [exec_eq_complete (u := s.acceptFastcmd op) rfl, State.complete_single (s := s.acceptFastcmd op) (p := .fastcmd op) rfl rfl rfl hx]
  exact congrArg (fun t : State => Host.Outcome.next (t.deliver .fastcmd)) (State.framed_accept ..)

theorem exec_wreg8 {ra : RegAddr} {v : Byte} {s : State} (hx : s.transportCompletes 2) :
    exec (.wreg8 ra v) s = .next (((s.framed (.wreg8 ra v)).accept .wreg8 .assert (ra.setWidth 6) v).respond statusOk 0#32) := by
  have prim : (s.acceptWreg8 ra v).prim .wreg8 0 = some (.wreg8 ra v) :=
    congrArg (fun x => some (Prim.wreg8 x v)) (argLow_setWidth ra)
  rw [exec_eq_complete (u := s.acceptWreg8 ra v) rfl, State.complete_single rfl prim rfl hx]
  exact congrArg (fun t : State => Host.Outcome.next (t.deliver .wreg8)) (State.framed_accept ..)

theorem exec_rreg8 {ra : RegAddr} {s : State} (hx : s.transportCompletes 2) :
    exec (.rreg8 ra) s = .next (((s.framed (.rreg8 ra)).accept .rreg8 .assert (ra.setWidth 6) 0#8).respond statusOk
      ((s.framed (.rreg8 ra)).t8.setWidth 32)) := by
  have prim : (s.acceptRreg8 ra).prim .rreg8 0 = some (.rreg8 ra) := congrArg (fun x => some (Prim.rreg8 x)) (argLow_setWidth ra)
  rw [exec_eq_complete (u := s.acceptRreg8 ra) rfl, State.complete_single rfl prim rfl hx]
  exact congrArg (fun t : State => Host.Outcome.next (t.deliver .rreg8)) (State.framed_accept ..)

theorem exec_rreg16 {ra : RegAddr} {s : State} (hx : s.transportCompletes 3) :
    exec (.rreg16 ra) s = .next (((s.framed (.rreg16 ra)).accept .rreg16 .assert (ra.setWidth 6) 0#8).respond statusOk
      ((s.framed (.rreg16 ra)).t16.setWidth 32)) := by
  have prim : (s.acceptRreg16 ra).prim .rreg16 0 = some (.rreg16 ra) :=
    congrArg (fun x => some (Prim.rreg16 x)) (argLow_setWidth ra)
  rw [exec_eq_complete (u := s.acceptRreg16 ra) rfl, State.complete_single rfl prim rfl hx]
  exact congrArg (fun t : State => Host.Outcome.next (t.deliver .rreg16)) (State.framed_accept ..)

theorem exec_reads16 {s : State} (hx : s.transportCompletes 3) :
    exec .reads16 s = .next (((s.framed (.rreg16 raAdcdata)).accept .reads16 .assert 0#6 0#8).deliver .reads16) := by
  rw [exec_eq_complete (u := s.acceptReads16) rfl,
    State.complete_single (s := s.acceptReads16) (p := .rreg16 raAdcdata) rfl rfl rfl hx]
  exact congrArg (fun t : State => Host.Outcome.next (t.deliver .reads16)) (State.framed_accept ..)

/-- RESET's three transactions, one after the other (R142). -/
def State.resetFrames (s : State) : State :=
  let t := (s.framed (.fastcmd opReset)).framed (.rreg8 raIrq)
  t.framed (.wreg8 raIrq (irqMasked t.t8))

theorem State.resetFrames_accept (op : Op) (ph : Phase) (a : BitVec 6) (d : Byte) (s : State) :
    (s.accept op ph a d).resetFrames = s.resetFrames.accept op ph a d := by
  simp only [State.resetFrames, State.framed_accept, State.accept_t8]

theorem exec_reset {s : State} (hx : s.transportCompletes 5) :
    exec .reset s = .next ((s.resetFrames.accept .reset .assert 0#6 0#8).respond statusOk 0#32) := by
  have run : s.acceptReset.complete = s.acceptReset.resetFrames.respond statusOk 0#32 :=
    State.run_reset_frames (.inl ⟨rfl, rfl⟩) 4 rfl hx
  rw [exec_eq_complete (u := s.acceptReset) rfl, run]
  exact congrArg (fun t : State => Host.Outcome.next (t.respond statusOk 0#32)) (State.resetFrames_accept ..)

/-- CONVERT's two transactions (R144). -/
def State.convertFrames (ch : BitVec 4) (s : State) : State :=
  (s.framed (.wreg8 raMux (muxValue ch))).framed (.fastcmd opStart)

theorem State.convertFrames_accept (ch : BitVec 4) (op : Op) (ph : Phase) (a : BitVec 6) (d : Byte) (s : State) :
    (s.accept op ph a d).convertFrames ch = (s.convertFrames ch).accept op ph a d := by
  simp only [State.convertFrames, State.framed_accept]

theorem State.run_convert_frames {ch : BitVec 4} {s : State} (f : Nat) (seq : s.seq = .pos .convert 0 .assert)
    (arg : argLow s.argA = ch) (hx : s.transportCompletes 3) :
    s.run (8 + f) = (s.convertFrames ch).respond statusOk 0#32 := by
  rw [show 8 + f = primLen (.wreg8 raMux (muxValue ch)) + 2 + (4 + f) from by simp [primLen]; omega,
    State.run_frame (p := .wreg8 raMux (muxValue ch)) (4 + f) seq (by rw [← arg]; rfl) (hx.mono (Nat.le_succ 2))]
  have rest : (s.framed (.wreg8 raMux (muxValue ch))).transportCompletes 1 := hx.drop (k := 2) (State.framed_xfers _ s)
  rw [show afterStep .convert 0 = .pos .convert 1 .assert from rfl,
    show 4 + f = primLen (.fastcmd opStart) + 2 + (f + 1) from by simp [primLen]; omega,
    State.run_frame (p := .fastcmd opStart) (s := (s.framed (.wreg8 raMux (muxValue ch))).goto (.pos .convert 1 .assert)) (f + 1)
      rfl rfl rest, State.framed_goto, State.goto_goto,
    show afterStep .convert 1 = .pos .convert 1 .respond from rfl, State.run_respond]
  rfl

theorem exec_convert {ch : BitVec 4} {s : State} (hx : s.transportCompletes 3) :
    exec (.convert ch) s =
      .next (((s.convertFrames ch).accept .convert .assert (ch.setWidth 6) 0#8).respond statusOk 0#32) := by
  have run : (s.acceptConvert ch).complete = ((s.acceptConvert ch).convertFrames ch).respond statusOk 0#32 :=
    State.run_convert_frames 8 rfl (argLow_setWidth ch) hx
  rw [exec_eq_complete (u := s.acceptConvert ch) rfl, run]
  exact congrArg (fun t : State => Host.Outcome.next (t.respond statusOk 0#32)) (State.convertFrames_accept ..)

/-! ### The primitives (40_primitives.md) -/

/-- Settles O8: its one transaction is a FASTCMD frame. -/
theorem fastcmdResult : Obligations.FastcmdResult := by
  unfold Obligations.FastcmdResult
  intro op s hx
  obtain ⟨x, p, n, chip, framed⟩ := State.framed_fastcmd op s
  exact ⟨x, p, n, chip, by rw [exec_fastcmd hx, framed]; rfl⟩

/-- Settles O9: its one transaction is a WREG8 frame. -/
theorem wreg8Result : Obligations.Wreg8Result := by
  unfold Obligations.Wreg8Result
  intro ra v s hx
  obtain ⟨x, y, p, n, chip, framed⟩ := State.framed_wreg8 ra v s
  exact ⟨x, y, p, n, chip, by rw [exec_wreg8 hx, framed]; rfl⟩

/-- Settles O10: its one transaction is an RREG8 frame, whose second byte is the response. -/
theorem rreg8Result : Obligations.Rreg8Result := by
  unfold Obligations.Rreg8Result
  intro ra s hx
  obtain ⟨x, y, p, n, chip, framed⟩ := State.framed_rreg8 ra s
  exact ⟨x, y, p, n, chip, by rw [exec_rreg8 hx, framed]; rfl⟩

/-- Settles O11: its one transaction is an RREG16 frame, whose two trailing bytes are the response. -/
theorem rreg16Result : Obligations.Rreg16Result := by
  unfold Obligations.Rreg16Result
  intro ra s hx
  obtain ⟨x, y, z, p, n, chip, framed⟩ := State.framed_rreg16 ra s
  exact ⟨x, y, z, p, n, chip, by rw [exec_rreg16 hx, framed]; rfl⟩

/-! ### The public operations (41_public_ops.md) -/

/-- Settles O16: its one transaction is an RREG16 frame at register 0. -/
theorem reads16Result : Obligations.Reads16Result := by
  unfold Obligations.Reads16Result
  intro s hx
  obtain ⟨x, y, z, p, n, chip, framed⟩ := State.framed_rreg16 raAdcdata s
  rw [regByte_readAdcdata] at chip framed
  exact ⟨x, y, z, p, n, chip, by rw [exec_reads16 hx, framed]; rfl⟩

/-- What RESET's three transactions leave, with the bytes received named; the second reads IRQ, the third writes it back with bit 0
cleared (R142). -/
theorem State.resetFrames_spec (s : State) :
    ∃ x0 x1 x2 x3 x4 p1 p2 p n1 n2 n,
      let v := s.heard 2 x2
      chipFrame s.cs [s.addrbits ||| 0x38#8] s.draws s.peer = ⟨[x0], p1, n1⟩ ∧
      chipFrame true [s.addrbits ||| 0x17#8, s.buf21] n1 p1 = ⟨[x1, x2], p2, n2⟩ ∧
      chipFrame true [s.addrbits ||| 0x16#8, v &&& 0xFE#8] n2 p2 = ⟨[x3, x4], p, n⟩ ∧
      s.resetFrames = { s with
        buf10 := s.addrbits ||| 0x38#8, buf20 := s.addrbits ||| 0x16#8, buf21 := v &&& 0xFE#8, t8 := v, cs := true
        peer := p, draws := n, xfers := s.xfers.drop 5
        trace := s.trace ++ (fallFrom s.cs ++ [.byte (s.addrbits ||| 0x38#8) (s.heard 0 x0), .csRise,
          .csFall, .byte (s.addrbits ||| 0x17#8) (s.heard 1 x1), .byte s.buf21 v, .csRise,
          .csFall, .byte (s.addrbits ||| 0x16#8) (s.heard 3 x3), .byte (v &&& 0xFE#8) (s.heard 4 x4), .csRise]) } := by
  obtain ⟨x0, p1, n1, chip1, framed1⟩ := State.framed_fastcmd opReset s
  obtain ⟨x1, x2, p2, n2, chip2, framed2⟩ := State.framed_rreg8 raIrq (s.framed (.fastcmd opReset))
  obtain ⟨x3, x4, p, n, chip3, framed3⟩ := State.framed_wreg8 raIrq
    (irqMasked ((s.framed (.fastcmd opReset)).framed (.rreg8 raIrq)).t8) ((s.framed (.fastcmd opReset)).framed (.rreg8 raIrq))
  have left1 : (s.framed (.fastcmd opReset)).xfers = s.xfers.drop 1 := State.framed_xfers _ s
  have left2 : ((s.framed (.fastcmd opReset)).framed (.rreg8 raIrq)).xfers = s.xfers.drop 3 := by
    rw [State.framed_xfers, left1, List.drop_drop]; rfl
  rw [State.heard_drop left1, State.heard_drop left1] at framed2
  rw [State.heard_drop left2, State.heard_drop left2] at framed3
  rw [framed2, framed1] at chip3 framed3
  rw [framed1] at chip2
  refine ⟨x0, x1, x2, x3, x4, p1, p2, p, n1, n2, n, chip1, ?_, ?_, ?_⟩
  · rw [← regByte_readIrq]; exact chip2
  · rw [← regByte_writeIrq]; exact chip3
  · rw [State.resetFrames, framed2, framed1, framed3, ← regByte_readIrq, ← regByte_writeIrq]
    simp [fallFrom, List.drop_drop, irqMasked, fastByte_reset]

/-- Settles O12. -/
theorem resetResult : Obligations.ResetResult := by
  unfold Obligations.ResetResult
  intro s hx
  obtain ⟨x0, x1, x2, x3, x4, p1, p2, p, n1, n2, n, chip1, chip2, chip3, frames⟩ := s.resetFrames_spec
  exact ⟨x0, x1, x2, x3, x4, p1, p2, p, n1, n2, n, chip1, chip2, chip3, by rw [exec_reset hx, frames]; rfl⟩

/-- What CONVERT's two transactions leave, with the bytes received named (R144). -/
theorem State.convertFrames_spec (ch : BitVec 4) (s : State) :
    ∃ x0 x1 x2 p1 p n1 n,
      chipFrame s.cs [s.addrbits ||| 0x1A#8, ch ++ 0b1000#4] s.draws s.peer = ⟨[x0, x1], p1, n1⟩ ∧
      chipFrame true [s.addrbits ||| 0x28#8] n1 p1 = ⟨[x2], p, n⟩ ∧
      s.convertFrames ch = { s with
        buf20 := s.addrbits ||| 0x1A#8, buf21 := ch ++ 0b1000#4, buf10 := s.addrbits ||| 0x28#8, cs := true, peer := p, draws := n
        xfers := s.xfers.drop 3
        trace := s.trace ++ (fallFrom s.cs ++
          [.byte (s.addrbits ||| 0x1A#8) (s.heard 0 x0), .byte (ch ++ 0b1000#4) (s.heard 1 x1), .csRise,
            .csFall, .byte (s.addrbits ||| 0x28#8) (s.heard 2 x2), .csRise]) } := by
  obtain ⟨x0, x1, p1, n1, chip1, framed1⟩ := State.framed_wreg8 raMux (muxValue ch) s
  obtain ⟨x2, p, n, chip2, framed2⟩ := State.framed_fastcmd opStart (s.framed (.wreg8 raMux (muxValue ch)))
  rw [State.heard_drop (k := 2) (State.framed_xfers _ s)] at framed2
  rw [framed1] at chip2 framed2
  rw [muxValue_eq, regByte_writeMux] at chip1
  refine ⟨x0, x1, x2, p1, p, n1, n, chip1, chip2, ?_⟩
  rw [State.convertFrames, framed1, framed2]
  simp [fallFrom, List.drop_drop, muxValue_eq, regByte_writeMux, fastByte_start]

/-- Settles O14. -/
theorem convertResult : Obligations.ConvertResult := by
  unfold Obligations.ConvertResult
  intro ch s hx
  obtain ⟨x0, x1, x2, p1, p, n1, n, chip1, chip2, frames⟩ := s.convertFrames_spec ch
  exact ⟨x0, x1, x2, p1, p, n1, n, chip1, chip2, by rw [exec_convert hx, frames]; rfl⟩

/-- Settles O13: acceptances and responses in between write nothing that the next transaction reads. -/
theorem resetIsItsExpansion : Obligations.ResetIsItsExpansion := by
  unfold Obligations.ResetIsItsExpansion
  intro s hx
  have rest1 : (s.framed (.fastcmd opReset)).transportCompletes 4 := hx.drop (k := 1) (State.framed_xfers _ s)
  have rest2 : ((s.framed (.fastcmd opReset)).framed (.rreg8 raIrq)).transportCompletes 2 :=
    rest1.drop (k := 2) (State.framed_xfers _ _)
  refine ⟨_, _, _, exec_fastcmd (hx.mono (by decide)), exec_rreg8 (by exact rest1.mono (by decide)), exec_wreg8 (by
    simp only [State.framed_respond, State.framed_accept]; exact rest2), ?_⟩
  rw [exec_reset hx, State.resetFrames]
  simp only [State.framed_respond, State.framed_accept, State.respond_t8, State.accept_t8]
  rfl

/-- Settles O15: the acceptance and response in between write nothing that the second transaction reads. -/
theorem convertIsItsExpansion : Obligations.ConvertIsItsExpansion := by
  unfold Obligations.ConvertIsItsExpansion
  intro ch s hx
  have rest : (s.framed (.wreg8 raMux (muxValue ch))).transportCompletes 1 := hx.drop (k := 2) (State.framed_xfers _ s)
  refine ⟨_, _, exec_wreg8 (hx.mono (by decide)), exec_fastcmd (by exact rest), ?_⟩
  rw [exec_convert hx, State.convertFrames]
  simp only [State.framed_respond, State.framed_accept]
  rfl

/-- DRDY: the line sampled once, and the response (R148). -/
theorem exec_drdy (s : State) :
    exec .drdy s = .next (State.ended statusOk (readyWord s.drdyLevel)
      { s with argA := 0#6, argD := 0#8, sampled := s.drdyLevel, draws := s.draws + Config.drawStride
               trace := s.trace ++ [.drdySample s.drdyLevel] }) := by
  have sample : s.acceptDrdy.tick = (true, s.acceptDrdy.sampleDrdy) := rfl
  have run : s.acceptDrdy.complete = s.acceptDrdy.sampleDrdy.deliver .drdy := by
    rw [State.complete, show runFuel = 14 + 1 + 1 from rfl, State.run_tick sample]
    exact State.run_respond 14
  rw [exec_eq_complete (u := s.acceptDrdy) rfl, run]
  rfl

/-- Settles O17: the response's word is 1 exactly where the level is 0. -/
theorem drdyResult : Obligations.DrdyResult := by
  unfold Obligations.DrdyResult
  intro s
  have word : readyWord s.drdyLevel = if s.drdyLevel = false then 1#32 else 0#32 := by cases s.drdyLevel <;> rfl
  exact ⟨_, by rw [exec_drdy, word]⟩

end Sys2Proof.Machine
end

-- Proofs of the family of block and chip together (spec/20_memory.md, 41_public_ops.md, 43_slave_decode.md), first part: what a whole
-- frame does at the chip.
section
/-! A frame moves the chip's place in it (PMODE, PTR, PH), may see a conversion end, and besides does what its bytes say. The
relation `Peer.Ripens` takes the first two together, so that a frame's effect is one record update before it. -/

namespace Sys2Proof.Machine

/-! ### The chip but for its place in the frame and the end of a conversion (R183) -/

/-- `q` is `p` at some place of a frame, a conversion in progress at `p` perhaps having ended since. -/
structure Peer.Ripens (p q : Peer) : Prop where
  sa : q.sa = p.sa
  irq : q.irq = p.irq
  mux : q.mux = p.mux
  unknown : q.unknown = p.unknown
  result : (q.adcdata = p.adcdata ∧ q.convst = p.convst ∧ q.lineLow = p.lineLow) ∨
    (p.convst = .converting ∧ q.convst = .resultReady ∧ q.lineLow = true)

theorem Peer.Ripens.refl (p : Peer) : p.Ripens p := ⟨rfl, rfl, rfl, rfl, .inl ⟨rfl, rfl, rfl⟩⟩

theorem Peer.Ripens.trans {p q r : Peer} (h : p.Ripens q) (g : q.Ripens r) : p.Ripens r := by
  refine ⟨g.sa.trans h.sa, g.irq.trans h.irq, g.mux.trans h.mux, g.unknown.trans h.unknown, ?_⟩
  rcases h.result with ⟨adc, conv, line⟩ | ⟨conv, ready, line⟩ <;>
    rcases g.result with ⟨adc', conv', line'⟩ | ⟨conv', ready', line'⟩
  · exact .inl ⟨adc'.trans adc, conv'.trans conv, line'.trans line⟩
  · exact .inr ⟨conv.symm.trans conv', ready', line'⟩
  · exact .inr ⟨conv, conv'.trans ready, line'.trans line⟩
  · exact absurd (ready.symm.trans conv') (by decide)

/-- A chip that is not converting stays as it is. -/
theorem Peer.Ripens.idle {p q : Peer} (h : p.Ripens q) (idle : p.convst ≠ .converting) :
    q.adcdata = p.adcdata ∧ q.convst = p.convst ∧ q.lineLow = p.lineLow :=
  h.result.resolve_right fun conv => idle conv.1

theorem Peer.Ripens.known {p q : Peer} (h : p.Ripens q) (known : p.unknown = false) : q.unknown = false := h.unknown.trans known

/-- The place in the frame makes no difference. -/
theorem Peer.Ripens.place {p q : Peer} (h : p.Ripens q) (m : PMode) (ptr : RegAddr) (ph : BitVec 1) (moved : Bool) :
    p.Ripens { q with pmode := m, ptr := ptr, ph := ph, moved := moved } := ⟨h.sa, h.irq, h.mux, h.unknown, h.result⟩

/-- A write of MUX before or after the conversion has ended is the same. -/
theorem Peer.Ripens.withMux {p q : Peer} (h : p.Ripens q) (v : Byte) : Peer.Ripens { p with mux := v } { q with mux := v } :=
  ⟨h.sa, h.irq, rfl, h.unknown, h.result⟩

/-- A new value of IRQ before or after the conversion has ended is the same. -/
theorem Peer.Ripens.withIrq {p q : Peer} (h : p.Ripens q) (v : Byte) : Peer.Ripens { p with irq := v } { q with irq := v } :=
  ⟨h.sa, rfl, h.mux, h.unknown, h.result⟩

theorem Peer.Ripens.release {p q : Peer} (h : p.Ripens q) (idle : p.convst ≠ .converting) : p.release.Ripens q.release :=
  ⟨h.sa, h.irq, h.mux, h.unknown, .inl ⟨(h.idle idle).1, rfl, rfl⟩⟩

theorem Peer.ripens_convert (n : Nat) (p : Peer) : p.Ripens (p.convert n) := by
  rcases Peer.convert_cases n p with h | ⟨conv, d, h⟩ <;> rw [h]
  · exact .refl p
  · exact ⟨rfl, rfl, rfl, rfl, .inr ⟨conv, rfl, rfl⟩⟩

/-- The rise of chip-select after a frame that cuts no read short (R170, R183). -/
theorem Peer.ripens_csRise {p : Peer} (whole : p.readCutShort = false) (n : Nat) : p.Ripens (p.csRise n) := by
  obtain ⟨conv, line, adc⟩ := Peer.csRise_whole (n := n) whole
  have ripe := Peer.ripens_convert (n + 3) p
  refine ⟨Peer.csRise_sa .., Peer.csRise_irq .., Peer.csRise_mux .., Peer.csRise_unknown .., ?_⟩
  rw [conv, line, adc]
  exact ripe.result

theorem Peer.readCutShort_of_not_reading {p : Peer} (h : p.pmode ≠ .reading) : p.readCutShort = false := by
  simp [Peer.readCutShort, h]

/-! ### What every frame leaves (R35, R170) -/

theorem chipBytes_sa (outs : List Byte) (n : Nat) (p : Peer) : (chipBytes outs n p).peer.sa = p.sa := by
  induction outs generalizing n p with
  | nil => rfl
  | cons o os ih =>
    rw [chipBytes, ih, (Peer.byte_spec _ o _).1]
    simp

theorem chipFrame_sa {cs : Bool} {outs ins : List Byte} {n k : Nat} {p q : Peer} (h : chipFrame cs outs n p = ⟨ins, q, k⟩) :
    q.sa = p.sa := by
  have hq : q = (chipFrame cs outs n p).peer := by rw [h]
  rw [hq, chipFrame, Peer.csRise_sa, chipBytes_sa]
  split <;> rfl

theorem chipFrame_pmode {cs : Bool} {outs ins : List Byte} {n k : Nat} {p q : Peer} (h : chipFrame cs outs n p = ⟨ins, q, k⟩) :
    q.pmode = .deselected := by
  have hq : q = (chipFrame cs outs n p).peer := by rw [h]
  rw [hq, chipFrame, Peer.csRise_pmode]

/-! ### Frames at a chip of their address -/

/-- A transaction that begins with the fall of chip-select: its bytes at the selected chip, then the rise. -/
theorem chipFrame_bytes {outs ins : List Byte} {n k : Nat} {p q : Peer} (h : chipFrame true outs n p = ⟨ins, q, k⟩) :
    ins = (chipBytes outs n p.csFall).ins ∧
      q = (chipBytes outs n p.csFall).peer.csRise (chipBytes outs n p.csFall).draws := by
  rw [chipFrame, if_pos rfl, FrameResult.mk.injEq] at h
  exact ⟨h.1.symm, h.2.1.symm⟩

/-- One byte of a frame at a known chip: an opportunity of the conversion process, which leaves the place in the frame alone, and
the exchange. -/
theorem chipBytes_cons_known {p : Peer} (known : p.unknown = false) (o : Byte) (os : List Byte) (n : Nat) :
    ∃ w m k, p.Ripens w ∧ w.pmode = p.pmode ∧ w.ptr = p.ptr ∧ w.ph = p.ph ∧ w.moved = p.moved ∧
      chipBytes (o :: os) n p =
        ⟨(w.byte m o).1 :: (chipBytes os k (w.byte m o).2).ins, (chipBytes os k (w.byte m o).2).peer,
          (chipBytes os k (w.byte m o).2).draws⟩ := by
  refine ⟨p.convert n, n + 2 * Config.drawStride, n + 3 * Config.drawStride, Peer.ripens_convert n p, by simp, by simp, by simp,
    by simp, ?_⟩
  rw [chipBytes, Peer.settle_known (p := p.convert n) (by simpa using known)]

/-- A frame of a full reset of this chip, Unknown or not (R178). -/
theorem chipFrame_fastReset {p q : Peer} {n k : Nat} {ins : List Byte}
    (h : chipFrame true [encodeCmd8 p.sa opReset] n p = ⟨ins, q, k⟩) :
    q.unknown = false ∧ q.convst = .noResult ∧ q.lineLow = false := by
  have own : p.sa = ((p.csFall.convert n).settle n).sa := by simp
  have mode : ((p.csFall.convert n).settle n).pmode = .awaitCmd := by simp
  obtain ⟨-, hq⟩ := chipFrame_bytes h
  simp only [chipBytes, Peer.byte_awaitCmd mode] at hq
  rw [Peer.command_fastReset, Peer.addressed_mine own, Peer.settle_known rfl] at hq
  generalize (p.csFall.convert n).settle n = w at hq
  have ripe : Peer.Ripens _ q := hq ▸ Peer.ripens_csRise (Peer.readCutShort_of_not_reading (by nofun)) _
  obtain ⟨-, conv, line⟩ := ripe.idle (by nofun)
  exact ⟨ripe.unknown, conv, line⟩

/-- A frame of a start command to this chip (R177, R183). -/
theorem chipFrame_fastStart {p q : Peer} {n k : Nat} {ins : List Byte} (known : p.unknown = false)
    (h : chipFrame true [encodeCmd8 p.sa opStart] n p = ⟨ins, q, k⟩) :
    q.irq = p.irq ∧ q.mux = p.mux ∧ q.unknown = false ∧
      (q.convst = .converting ∨ q.convst = .resultReady ∧ q.lineLow = true) := by
  obtain ⟨w, m, j, fall, mode, -, -, -, bytes⟩ := chipBytes_cons_known (p := p.csFall) known (encodeCmd8 p.sa opStart) [] n
  have own : p.sa = w.sa := fall.sa.symm
  have started : (w.byte m (encodeCmd8 p.sa opStart)).2 = w.fastStart m := by
    rw [Peer.byte_awaitCmd mode, Peer.command_fastStart, Peer.addressed_mine own, Peer.settle_known (by exact fall.known known)]
  obtain ⟨-, hq⟩ := chipFrame_bytes h
  rw [bytes, started] at hq
  have ripe : (w.fastStart m).Ripens q := hq ▸ Peer.ripens_csRise (Peer.readCutShort_of_not_reading (by nofun)) _
  refine ⟨ripe.irq.trans fall.irq, ripe.mux.trans fall.mux, ripe.known (fall.known known), ?_⟩
  rcases ripe.result with ⟨-, conv, -⟩ | ⟨-, ready, line⟩
  · exact .inl conv
  · exact .inr ⟨ready, line⟩

/-- A write frame at a known chip comes to its data byte at the register its command names (R172, R180). -/
theorem chipFrame_write {p q : Peer} {ra : RegAddr} {v : Byte} {n k : Nat} {ins : List Byte} (known : p.unknown = false)
    (h : chipFrame true [encodeCmd8 p.sa (ra ++ xtWrite), v] n p = ⟨ins, q, k⟩) :
    ∃ w m j, p.Ripens w ∧ w.pmode = .writing ∧ w.ptr = ra ∧ q = (w.byte m v).2.csRise j := by
  obtain ⟨w, m, j, fall, mode, -, -, -, bytes⟩ :=
    chipBytes_cons_known (p := p.csFall) known (encodeCmd8 p.sa (ra ++ xtWrite)) [v] n
  have own : p.sa = w.sa := fall.sa.symm
  have begun : (w.byte m (encodeCmd8 p.sa (ra ++ xtWrite))).2 = w.beginWrite ra := by
    rw [Peer.byte_awaitCmd mode, Peer.command_incw, Peer.addressed_mine own, Peer.settle_known (by exact fall.known known)]
  obtain ⟨w', m', j', ripe, mode', ptr', -, -, bytes'⟩ :=
    chipBytes_cons_known (p := w.beginWrite ra) (fall.known known) v [] j
  obtain ⟨-, hq⟩ := chipFrame_bytes h
  rw [bytes, begun, bytes'] at hq
  have base : p.Ripens w := ⟨fall.sa, fall.irq, fall.mux, fall.unknown, fall.result⟩
  exact ⟨w', m', _, (base.place .writing ra 0#1 false).trans ripe, mode', ptr', hq⟩

/-- A write frame at MUX (R180). -/
theorem chipFrame_writeMux {p q : Peer} {v : Byte} {n k : Nat} {ins : List Byte} (known : p.unknown = false)
    (h : chipFrame true [encodeCmd8 p.sa (raMux ++ xtWrite), v] n p = ⟨ins, q, k⟩) : Peer.Ripens { p with mux := v } q := by
  obtain ⟨w, m, j, ripe, mode, ptr, rfl⟩ := chipFrame_write known h
  rw [Peer.byte_write_mux (ripe.known known) mode ptr]
  exact ((ripe.withMux v).place .writing 7#4 0#1 true).trans
    (mode ▸ Peer.ripens_csRise (Peer.readCutShort_of_not_reading (by simp [mode])) j)

/-- A write frame at IRQ (R180). -/
theorem chipFrame_writeIrq {p q : Peer} {v : Byte} {n k : Nat} {ins : List Byte} (known : p.unknown = false)
    (h : chipFrame true [encodeCmd8 p.sa (raIrq ++ xtWrite), v] n p = ⟨ins, q, k⟩) :
    ∃ m, Peer.Ripens { p with irq := irqWritten m v p.irq } q := by
  obtain ⟨w, m, j, ripe, mode, ptr, rfl⟩ := chipFrame_write known h
  rw [Peer.byte_write_irq (ripe.known known) mode ptr, ripe.irq]
  exact ⟨m, ((ripe.withIrq (irqWritten m v p.irq)).place .writing 6#4 0#1 true).trans
    (mode ▸ Peer.ripens_csRise (Peer.readCutShort_of_not_reading (by simp [mode])) j)⟩

/-- A write frame anywhere else (R186). -/
theorem chipFrame_writeUndescribed {p q : Peer} {ra : RegAddr} {v : Byte} {n k : Nat} {ins : List Byte} (known : p.unknown = false)
    (h5 : ra ≠ 5#4) (h6 : ra ≠ 6#4) (h : chipFrame true [encodeCmd8 p.sa (ra ++ xtWrite), v] n p = ⟨ins, q, k⟩) :
    q.unknown = true := by
  obtain ⟨w, m, j, -, mode, rfl, rfl⟩ := chipFrame_write known h
  rw [Peer.csRise_unknown, Peer.byte_write_undescribed mode h5 h6]

/-- A read frame at a known chip comes to its data bytes at the register its command names, and then chip-select rises (R172,
R182). -/
theorem chipFrame_read {p q : Peer} {ra : RegAddr} {outs ins : List Byte} {n k : Nat} (known : p.unknown = false)
    (h : chipFrame true (encodeCmd8 p.sa (ra ++ xtRead) :: outs) n p = ⟨ins, q, k⟩) :
    ∃ x w m, p.Ripens w ∧ w.pmode = .reading ∧ w.ptr = ra ∧ w.ph = 0#1 ∧
      ins = x :: (chipBytes outs m w).ins ∧ q = (chipBytes outs m w).peer.csRise (chipBytes outs m w).draws := by
  obtain ⟨w, m, j, fall, mode, -, -, -, bytes⟩ :=
    chipBytes_cons_known (p := p.csFall) known (encodeCmd8 p.sa (ra ++ xtRead)) outs n
  have own : p.sa = w.sa := fall.sa.symm
  have begun : (w.byte m (encodeCmd8 p.sa (ra ++ xtRead))).2 = w.beginRead ra := by
    rw [Peer.byte_awaitCmd mode, Peer.command_incr, Peer.addressed_mine own, Peer.settle_known (by exact fall.known known)]
  obtain ⟨hins, hq⟩ := chipFrame_bytes h
  rw [bytes, begun] at hins hq
  have base : p.Ripens w := ⟨fall.sa, fall.irq, fall.mux, fall.unknown, fall.result⟩
  exact ⟨_, w.beginRead ra, j, base.place .reading ra 0#1 false, rfl, rfl, rfl, hins, hq⟩

/-! ### The data bytes of a read (R182, R184, R186) -/

theorem Peer.readCutShort_of_moved {p : Peer} (moved : p.moved = true) (ph : p.ph = 0#1) : p.readCutShort = false := by
  simp [Peer.readCutShort, moved, ph]

section reading
variable {p : Peer} (known : p.unknown = false) (mode : p.pmode = .reading)
include known mode

/-- IRQ read: bit 0 as held, the other bits as they stand then. -/
theorem chipBytes_readIrq (ptr : p.ptr = 5#4) (o : Byte) (os : List Byte) (n : Nat) :
    ∃ m k w, Peer.Ripens { p with irq := irqNow m p.irq } w ∧ w.pmode = .reading ∧ w.ptr = 6#4 ∧ w.ph = 0#1 ∧ w.moved = true ∧
      (chipBytes (o :: os) n p).ins = irqNow m p.irq :: (chipBytes os k w).ins ∧
      (chipBytes (o :: os) n p).peer = (chipBytes os k w).peer ∧ (chipBytes (o :: os) n p).draws = (chipBytes os k w).draws := by
  obtain ⟨w, m, k, ripe, mode', ptr', -, -, bytes⟩ := chipBytes_cons_known known o os n
  rw [Peer.byte_read_irq (ripe.known known) (mode'.trans mode) (ptr'.trans ptr), ripe.irq] at bytes
  rw [bytes]
  exact ⟨m, k, _, (ripe.withIrq (irqNow m p.irq)).place w.pmode 6#4 0#1 true, mode'.trans mode, rfl, rfl, rfl, rfl, rfl, rfl⟩

/-- MUX read. -/
theorem chipBytes_readMux (ptr : p.ptr = 6#4) (o : Byte) (os : List Byte) (n : Nat) :
    ∃ k w, p.Ripens w ∧ w.pmode = .reading ∧ w.ptr = 7#4 ∧ w.ph = 0#1 ∧ w.moved = true ∧
      (chipBytes (o :: os) n p).ins = p.mux :: (chipBytes os k w).ins ∧
      (chipBytes (o :: os) n p).peer = (chipBytes os k w).peer ∧ (chipBytes (o :: os) n p).draws = (chipBytes os k w).draws := by
  obtain ⟨w, m, k, ripe, mode', ptr', -, -, bytes⟩ := chipBytes_cons_known known o os n
  rw [Peer.byte_read_mux (ripe.known known) (mode'.trans mode) (ptr'.trans ptr)] at bytes
  rw [bytes]
  exact ⟨k, _, ripe.place w.pmode 7#4 0#1 true, mode'.trans mode, rfl, rfl, rfl, by rw [ripe.mux], rfl, rfl⟩

/-- The high byte of ADCDATA. -/
theorem chipBytes_readHigh (ptr : p.ptr = 0#4) (ph : p.ph = 0#1) (o : Byte) (os : List Byte) (n : Nat) :
    ∃ x k w, p.Ripens w ∧ w.pmode = .reading ∧ w.ptr = 0#4 ∧ w.ph = 1#1 ∧
      (p.convst = .resultReady → x = p.adcdata.extractLsb' 8 8) ∧
      (chipBytes (o :: os) n p).ins = x :: (chipBytes os k w).ins ∧
      (chipBytes (o :: os) n p).peer = (chipBytes os k w).peer ∧ (chipBytes (o :: os) n p).draws = (chipBytes os k w).draws := by
  obtain ⟨w, m, k, ripe, mode', ptr', ph', -, bytes⟩ := chipBytes_cons_known known o os n
  rw [Peer.byte_read_high (ripe.known known) (mode'.trans mode) (ptr'.trans ptr) (ph'.trans ph)] at bytes
  rw [bytes]
  refine ⟨_, k, _, ripe.place w.pmode w.ptr 1#1 true, mode'.trans mode, ptr'.trans ptr, rfl, fun ready => ?_, rfl, rfl, rfl⟩
  obtain ⟨adc, conv, -⟩ := ripe.idle (by rw [ready]; decide)
  rw [if_pos (conv.trans ready), adc]

/-- The low byte of ADCDATA: with a result ready, it may be released (R184). -/
theorem chipBytes_readLow (ptr : p.ptr = 0#4) (ph : p.ph = 1#1) (o : Byte) (os : List Byte) (n : Nat) :
    ∃ x k w, w.unknown = false ∧ w.pmode = .reading ∧ w.ph = 0#1 ∧ w.moved = true ∧
      (p.convst = .resultReady → x = p.adcdata.extractLsb' 0 8 ∧ (p.Ripens w ∨ p.release.Ripens w)) ∧
      (chipBytes (o :: os) n p).ins = x :: (chipBytes os k w).ins ∧
      (chipBytes (o :: os) n p).peer = (chipBytes os k w).peer ∧ (chipBytes (o :: os) n p).draws = (chipBytes os k w).draws := by
  obtain ⟨w, m, k, ripe, mode', ptr', ph', -, bytes⟩ := chipBytes_cons_known known o os n
  by_cases ready : w.convst = .resultReady
  · rw [Peer.byte_read_low_ready (ripe.known known) (mode'.trans mode) (ptr'.trans ptr) (ph'.trans ph) ready] at bytes
    rw [bytes]
    have passed := ripe.place w.pmode 1#4 0#1 true
    rcases Peer.adcdataReadDone_cases m { w with ptr := 1#4, ph := 0#1, moved := true } with kept | released
    · rw [kept]
      refine ⟨_, k, { w with ptr := 1#4, ph := 0#1, moved := true }, ripe.known known, mode'.trans mode, rfl, rfl, fun here => ?_, rfl, rfl, rfl⟩
      exact ⟨by rw [(ripe.idle (by rw [here]; decide)).1], .inl passed⟩
    · rw [released]
      refine ⟨_, k, Peer.release { w with ptr := 1#4, ph := 0#1, moved := true }, ripe.known known, mode'.trans mode, rfl, rfl, fun here => ?_, rfl, rfl, rfl⟩
      exact ⟨by rw [(ripe.idle (by rw [here]; decide)).1], .inr (passed.release (by rw [here]; decide))⟩
  · rw [Peer.byte_read_low_notReady (ripe.known known) (mode'.trans mode) (ptr'.trans ptr) (ph'.trans ph) ready] at bytes
    rw [bytes]
    refine ⟨_, k, { w with ptr := 1#4, ph := 0#1, moved := true }, ripe.known known, mode'.trans mode, rfl, rfl, fun here => ?_,
      rfl, rfl, rfl⟩
    exact absurd ((ripe.idle (by rw [here]; decide)).2.1.trans here) ready

end reading

/-- A chip that is Unknown inside a read stays Unknown to its end (R170). -/
theorem chipBytes_unknown (os : List Byte) (n : Nat) {p : Peer} (unknown : p.unknown = true) (mode : p.pmode = .reading) :
    (chipBytes os n p).peer.unknown = true := by
  induction os generalizing n p with
  | nil => exact unknown
  | cons o os ih =>
    have mode' : ((p.convert n).settle n).pmode = .reading := by simpa using mode
    rw [chipBytes, Peer.byte_reading mode']
    exact ih _ (by simpa using Peer.readData_unknown (by simpa using unknown)) (by simpa using mode)

/-- A read anywhere but at the three registers (R186). -/
theorem chipBytes_readUndescribed {p : Peer} (mode : p.pmode = .reading) (h0 : p.ptr ≠ 0#4) (h5 : p.ptr ≠ 5#4) (h6 : p.ptr ≠ 6#4)
    (o : Byte) (os : List Byte) (n : Nat) : (chipBytes (o :: os) n p).peer.unknown = true := by
  have mode' : ((p.convert n).settle n).pmode = .reading := by simpa using mode
  rw [chipBytes]
  refine chipBytes_unknown os _ (Peer.byte_read_undescribed mode' (by simpa) (by simpa) (by simpa) _ o) ?_
  rw [Peer.byte_reading mode']
  simpa using mode

/-! ### Read frames at a chip of their address -/

section readFrames
variable {p q : Peer} {o o' : Byte} {ins : List Byte} {n k : Nat} (known : p.unknown = false)
include known

theorem chipFrame_readIrq (h : chipFrame true [encodeCmd8 p.sa (raIrq ++ xtRead), o] n p = ⟨ins, q, k⟩) :
    ∃ x m, ins = [x, irqNow m p.irq] ∧ Peer.Ripens { p with irq := irqNow m p.irq } q := by
  obtain ⟨x, w, j, ripe, mode, ptr, -, rfl, rfl⟩ := chipFrame_read known h
  obtain ⟨m, i, w', ripe', -, -, ph', moved', ins', peer', draws'⟩ := chipBytes_readIrq (ripe.known known) mode ptr o [] j
  rw [ins', peer', draws', ripe.irq]
  rw [ripe.irq] at ripe'
  exact ⟨x, m, rfl, (ripe.withIrq _).trans (ripe'.trans (Peer.ripens_csRise (Peer.readCutShort_of_moved moved' ph') _))⟩

theorem chipFrame_readMux (h : chipFrame true [encodeCmd8 p.sa (raMux ++ xtRead), o] n p = ⟨ins, q, k⟩) :
    ∃ x, ins = [x, p.mux] ∧ p.Ripens q := by
  obtain ⟨x, w, j, ripe, mode, ptr, -, rfl, rfl⟩ := chipFrame_read known h
  obtain ⟨i, w', ripe', -, -, ph', moved', ins', peer', draws'⟩ := chipBytes_readMux (ripe.known known) mode ptr o [] j
  rw [ins', peer', draws', ripe.mux]
  exact ⟨x, rfl, ripe.trans (ripe'.trans (Peer.ripens_csRise (Peer.readCutShort_of_moved moved' ph') _))⟩

/-- IRQ and then MUX: the pointer moves on (R64). -/
theorem chipFrame_readIrqMux (h : chipFrame true [encodeCmd8 p.sa (raIrq ++ xtRead), o, o'] n p = ⟨ins, q, k⟩) :
    ∃ x m, ins = [x, irqNow m p.irq, p.mux] ∧ Peer.Ripens { p with irq := irqNow m p.irq } q := by
  obtain ⟨x, w, j, ripe, mode, ptr, -, rfl, rfl⟩ := chipFrame_read known h
  obtain ⟨m, i, w', ripe', mode', ptr', -, -, ins', peer', draws'⟩ := chipBytes_readIrq (ripe.known known) mode ptr o [o'] j
  rw [ripe.irq] at ripe' ins'
  have base := (ripe.withIrq (irqNow m p.irq)).trans ripe'
  obtain ⟨i', w'', ripe'', -, -, ph'', moved'', ins'', peer'', draws''⟩ :=
    chipBytes_readMux (base.known known) mode' ptr' o' [] i
  rw [ins', ins'', peer', peer'', draws', draws'', base.mux]
  exact ⟨x, m, rfl, base.trans (ripe''.trans (Peer.ripens_csRise (Peer.readCutShort_of_moved moved'' ph'') _))⟩

/-- ADCDATA whole: the sample where a result is ready, which may then be released (R182, R184). -/
theorem chipFrame_readAdcdata (h : chipFrame true [encodeCmd8 p.sa (raAdcdata ++ xtRead), o, o'] n p = ⟨ins, q, k⟩) :
    q.unknown = false ∧ (p.convst = .resultReady →
      (∃ x, ins = [x, p.adcdata.extractLsb' 8 8, p.adcdata.extractLsb' 0 8]) ∧ (p.Ripens q ∨ p.release.Ripens q)) := by
  obtain ⟨x, w, j, ripe, mode, ptr, ph, rfl, rfl⟩ := chipFrame_read known h
  obtain ⟨hi, i, w', ripe', mode', ptr', ph', high, ins', peer', draws'⟩ :=
    chipBytes_readHigh (ripe.known known) mode ptr ph o [o'] j
  have base := ripe.trans ripe'
  obtain ⟨lo, i', w'', known'', mode'', ph'', moved'', low, ins'', peer'', draws''⟩ :=
    chipBytes_readLow (base.known known) mode' ptr' ph' o' [] i
  have rise := Peer.ripens_csRise (Peer.readCutShort_of_moved moved'' ph'') (chipBytes [] i' w'').draws
  rw [ins', ins'', peer', peer'', draws', draws'']
  refine ⟨rise.known known'', fun ready => ?_⟩
  have notConverting : p.convst ≠ .converting := by rw [ready]; decide
  obtain ⟨adc, conv, -⟩ := ripe.idle notConverting
  obtain ⟨adc', conv', -⟩ := base.idle notConverting
  obtain ⟨lowByte, left⟩ := low (conv'.trans ready)
  refine ⟨⟨x, by rw [high (conv.trans ready), lowByte, adc, adc']; rfl⟩, left.imp (fun kept => ?_) (fun released => ?_)⟩
  · exact base.trans (kept.trans rise)
  · exact (base.release notConverting).trans (released.trans rise)

/-- The high byte of ADCDATA alone: the rise cuts the read short, so whether the ready state was touched is open (R188). -/
theorem chipFrame_readAdcdataHigh (h : chipFrame true [encodeCmd8 p.sa (raAdcdata ++ xtRead), o] n p = ⟨ins, q, k⟩) :
    (∃ x y, ins = [x, y] ∧ (p.convst = .resultReady → y = p.adcdata.extractLsb' 8 8)) ∧
      q.irq = p.irq ∧ q.mux = p.mux ∧ q.unknown = false ∧
      (p.convst = .resultReady → p.Ripens q ∨ p.release.Ripens q) ∧ (p.convst = .noResult → p.Ripens q) := by
  obtain ⟨x, w, j, ripe, mode, ptr, ph, rfl, rfl⟩ := chipFrame_read known h
  obtain ⟨hi, i, w', ripe', -, -, -, high, ins', peer', draws'⟩ := chipBytes_readHigh (ripe.known known) mode ptr ph o [] j
  have base := ripe.trans ripe'
  rw [ins', peer', draws']
  refine ⟨⟨x, hi, rfl, fun ready => ?_⟩, by simpa [chipBytes] using base.irq, by simpa [chipBytes] using base.mux,
    by simpa [chipBytes] using base.known known, fun ready => ?_, fun none => ?_⟩
  · obtain ⟨adc, conv, -⟩ := ripe.idle (by rw [ready]; decide)
    rw [high (conv.trans ready), adc]
  · have notConverting : p.convst ≠ .converting := by rw [ready]; decide
    obtain ⟨r, h, whole | ⟨-, -, released⟩⟩ := Peer.csRise_cases (chipBytes [] i w').draws w'
    · exact .inl (whole ▸ (base.trans (Peer.ripens_convert _ w')).place .deselected r h false)
    · exact .inr (released ▸ ((base.trans (Peer.ripens_convert _ w')).release notConverting).place .deselected r h false)
  · have notConverting : p.convst ≠ .converting := by rw [none]; decide
    have here := base.trans (Peer.ripens_convert ((chipBytes [] i w').draws + 3) w')
    obtain ⟨r, h, whole | ⟨-, ready, -⟩⟩ := Peer.csRise_cases (chipBytes [] i w').draws w'
    · exact whole ▸ here.place .deselected r h false
    · exact absurd (ready.symm.trans ((here.idle notConverting).2.1.trans none)) (by decide)

/-- A read frame at an address without a register, whatever its length (R186). -/
theorem chipFrame_readUndescribed {ra : RegAddr} {os : List Byte} (h0 : ra ≠ 0#4) (h5 : ra ≠ 5#4) (h6 : ra ≠ 6#4)
    (h : chipFrame true (encodeCmd8 p.sa (ra ++ xtRead) :: o :: os) n p = ⟨ins, q, k⟩) : q.unknown = true := by
  obtain ⟨x, w, j, -, mode, rfl, -, -, rfl⟩ := chipFrame_read known h
  rw [Peer.csRise_unknown, chipBytes_readUndescribed mode h0 h5 h6]

/-- A read of two bytes at MUX goes on to an address without a register (R186). -/
theorem chipFrame_readPastMux (h : chipFrame true [encodeCmd8 p.sa (raMux ++ xtRead), o, o'] n p = ⟨ins, q, k⟩) :
    q.unknown = true := by
  obtain ⟨x, w, j, ripe, mode, ptr, -, rfl, rfl⟩ := chipFrame_read known h
  obtain ⟨i, w', -, mode', ptr', -, -, -, peer', -⟩ := chipBytes_readMux (ripe.known known) mode ptr o [o'] j
  rw [Peer.csRise_unknown, peer',
    chipBytes_readUndescribed mode' (by rw [ptr']; decide) (by rw [ptr']; decide) (by rw [ptr']; decide)]

end readFrames

/-! ### Frames for another device (R174) -/

theorem chipBytes_ignoring (os : List Byte) (n : Nat) {p : Peer} (known : p.unknown = false) (mode : p.pmode = .ignore) :
    p.Ripens (chipBytes os n p).peer ∧ (chipBytes os n p).peer.pmode = .ignore := by
  induction os generalizing n p with
  | nil => exact ⟨.refl p, mode⟩
  | cons o os ih =>
    obtain ⟨w, m, k, ripe, mode', -, -, -, bytes⟩ := chipBytes_cons_known known o os n
    rw [Peer.byte_ignore (mode'.trans mode), Peer.settle_known (ripe.known known)] at bytes
    rw [bytes]
    obtain ⟨rest, ignoring⟩ := ih k (ripe.known known) (mode'.trans mode)
    exact ⟨ripe.trans rest, ignoring⟩

/-- A frame for another device at a known chip. -/
theorem chipFrame_otherDevice {p q : Peer} {c : Byte} {os ins : List Byte} {n k : Nat} (known : p.unknown = false)
    (other : c.extractLsb' 6 2 ≠ p.sa) (h : chipFrame true (c :: os) n p = ⟨ins, q, k⟩) : p.Ripens q := by
  obtain ⟨w, m, j, fall, mode, -, -, -, bytes⟩ := chipBytes_cons_known (p := p.csFall) known c os n
  have ignored : (w.byte m c).2 = w.ignoreFrame := by
    rw [Peer.byte_awaitCmd mode, Peer.command_otherDevice _ (by rw [fall.sa]; exact other),
      Peer.settle_known (by exact fall.known known)]
  obtain ⟨-, hq⟩ := chipFrame_bytes h
  rw [bytes, ignored] at hq
  obtain ⟨rest, ignoring⟩ := chipBytes_ignoring os j (p := w.ignoreFrame) (fall.known known) rfl
  have base : p.Ripens w := ⟨fall.sa, fall.irq, fall.mux, fall.unknown, fall.result⟩
  rw [hq]
  exact (base.place .ignore w.ptr w.ph w.moved).trans
    (rest.trans (Peer.ripens_csRise (Peer.readCutShort_of_not_reading (by rw [ignoring]; decide)) _))

end Sys2Proof.Machine
end

-- Proofs of the family of block and chip together (spec/20_memory.md, 41_public_ops.md, 43_slave_decode.md), second part: what an
-- operation does to the chip of its address (O18, O32 to O37, O39, O40) and to another (O38), and its events on the wire (O42,
-- O47).
section
/-! The results of the operations give each transaction as one frame at the chip; the facts about frames then say what the chip is
afterwards. -/

namespace Sys2Proof.Machine

/-! ### A transport that completes with the chip's bytes -/

theorem State.transportDone.completes {n : Nat} {s : State} (h : s.transportDone n) : s.transportCompletes n := by
  refine ⟨?_, fun x hx => ?_⟩
  · have len := congrArg List.length (show s.xfers.take n = List.replicate n .done from h)
    rw [List.length_take, List.length_replicate] at len
    omega
  · rw [show s.xfers.take n = List.replicate n .done from h] at hx
    rw [List.eq_of_mem_replicate hx]
    rfl

theorem State.transportDone.heard {n i : Nat} {s : State} (h : s.transportDone n) (hi : i < n) (x : Byte) : s.heard i x = x := by
  have answer : s.xfers[i]? = some .done := by
    rw [← List.getElem?_take_of_lt hi, show s.xfers.take n = List.replicate n .done from h, List.getElem?_replicate_of_lt hi]
  simp [State.heard, List.getD, answer, Xfer.heard]

theorem State.transportDone.mono {n m : Nat} {s : State} (h : s.transportDone n) (hm : m ≤ n) : s.transportDone m := by
  have cut := congrArg (List.take m) (show s.xfers.take n = List.replicate n .done from h)
  rwa [List.take_take, List.take_replicate, Nat.min_eq_left hm] at cut

/-! ### Operations of a block that stores the address `a`, chip-select high -/

section addressed
variable {a : DevAddr} {s : State} (address : s.hasAddress a) (high : s.cs = true)
include address high

theorem exec_fastcmd_chip (op : FastOp) (hx : s.transportDone 1) :
    ∃ t x n, exec (.fastcmd op) s = .next t ∧ chipFrame true [encodeCmd8 a op] s.draws s.peer = ⟨[x], t.peer, n⟩ := by
  obtain ⟨x, p, n, chip, next⟩ := fastcmdResult op s hx.completes
  rw [high, show s.addrbits ||| op.setWidth 8 = fastByte s.addrbits op from rfl, address, fastByte_addrBitsOf] at chip
  exact ⟨_, x, n, next, chip⟩

theorem exec_wreg8_chip (ra : RegAddr) (v : Byte) (hx : s.transportDone 2) :
    ∃ t ins n, exec (.wreg8 ra v) s = .next t ∧ t.rspStatus = statusOk ∧
      chipFrame true [encodeCmd8 a (ra ++ xtWrite), v] s.draws s.peer = ⟨ins, t.peer, n⟩ := by
  obtain ⟨x, y, p, n, chip, next⟩ := wreg8Result ra v s hx.completes
  rw [high, ← regByte_write, address, regByte_addrBitsOf] at chip
  exact ⟨_, _, n, next, rfl, chip⟩

theorem exec_rreg8_chip (ra : RegAddr) (hx : s.transportDone 2) :
    ∃ t x y n, exec (.rreg8 ra) s = .next t ∧ t.rspStatus = statusOk ∧ t.t8 = y ∧
      chipFrame true [encodeCmd8 a (ra ++ xtRead), s.buf21] s.draws s.peer = ⟨[x, y], t.peer, n⟩ := by
  obtain ⟨x, y, p, n, chip, next⟩ := rreg8Result ra s hx.completes
  rw [high, ← regByte_read, address, regByte_addrBitsOf] at chip
  exact ⟨_, x, y, n, next, rfl, hx.heard (by decide) y, chip⟩

theorem exec_rreg16_chip (ra : RegAddr) (hx : s.transportDone 3) :
    ∃ t x y z n, exec (.rreg16 ra) s = .next t ∧ t.rspStatus = statusOk ∧ t.t16 = y ++ z ∧
      chipFrame true [encodeCmd8 a (ra ++ xtRead), s.buf31, s.buf32] s.draws s.peer = ⟨[x, y, z], t.peer, n⟩ := by
  obtain ⟨x, y, z, p, n, chip, next⟩ := rreg16Result ra s hx.completes
  rw [high, ← regByte_read, address, regByte_addrBitsOf] at chip
  exact ⟨_, x, y, z, n, next, rfl, congrArg₂ (· ++ ·) (hx.heard (by decide) y) (hx.heard (by decide) z), chip⟩

theorem exec_reads16_chip (hx : s.transportDone 3) :
    ∃ t x y z n, exec .reads16 s = .next t ∧ t.t16 = y ++ z ∧ t.rspData = sext16Word (y ++ z) ∧
      chipFrame true [encodeCmd8 a (raAdcdata ++ xtRead), s.buf31, s.buf32] s.draws s.peer = ⟨[x, y, z], t.peer, n⟩ := by
  obtain ⟨x, y, z, p, n, chip, next⟩ := reads16Result s hx.completes
  rw [high, ← regByte_readAdcdata, address, regByte_addrBitsOf] at chip
  rw [hx.heard (by decide) y, hx.heard (by decide) z] at next
  exact ⟨_, x, y, z, n, next, rfl, rfl, chip⟩

theorem exec_convert_chip (ch : BitVec 4) (hx : s.transportDone 3) :
    ∃ t p1 n1 n ins1 ins2, exec (.convert ch) s = .next t ∧
      chipFrame true [encodeCmd8 a (raMux ++ xtWrite), ch ++ 0b1000#4] s.draws s.peer = ⟨ins1, p1, n1⟩ ∧
      chipFrame true [encodeCmd8 a opStart] n1 p1 = ⟨ins2, t.peer, n⟩ := by
  obtain ⟨x0, x1, x2, p1, p, n1, n, chip1, chip2, next⟩ := convertResult ch s hx.completes
  rw [high, ← regByte_writeMux, address, regByte_addrBitsOf] at chip1
  rw [← fastByte_start, address, fastByte_addrBitsOf] at chip2
  exact ⟨_, p1, n1, n, _, _, next, chip1, chip2⟩

theorem exec_reset_chip (hx : s.transportDone 5) :
    ∃ t p1 p2 n1 n2 n v ins1 ins2 ins3, exec .reset s = .next t ∧
      chipFrame true [encodeCmd8 a opReset] s.draws s.peer = ⟨ins1, p1, n1⟩ ∧
      chipFrame true [encodeCmd8 a (raIrq ++ xtRead), s.buf21] n1 p1 = ⟨ins2, p2, n2⟩ ∧
      chipFrame true [encodeCmd8 a (raIrq ++ xtWrite), v &&& 0xFE#8] n2 p2 = ⟨ins3, t.peer, n⟩ := by
  obtain ⟨x0, x1, x2, x3, x4, p1, p2, p, n1, n2, n, chip1, chip2, chip3, next⟩ := resetResult s hx.completes
  rw [high, ← fastByte_reset, address, fastByte_addrBitsOf] at chip1
  rw [← regByte_readIrq, address, regByte_addrBitsOf] at chip2
  rw [← regByte_writeIrq, address, regByte_addrBitsOf] at chip3
  exact ⟨_, p1, p2, n1, n2, n, _, _, _, _, next, chip1, chip2, chip3⟩

end addressed

/-! ### RESET and construction (R37, R140, R142, R178) -/

/-- RESET's three frames at a chip of their address, Unknown or not: the full reset makes it known, with no result; the value
written back over IRQ has bit 0 cleared whatever was read. -/
theorem chip_after_reset {p p1 p2 q : Peer} {n n1 n2 n3 : Nat} {o v : Byte} {ins1 ins2 ins3 : List Byte}
    (chip1 : chipFrame true [encodeCmd8 p.sa opReset] n p = ⟨ins1, p1, n1⟩)
    (chip2 : chipFrame true [encodeCmd8 p.sa (raIrq ++ xtRead), o] n1 p1 = ⟨ins2, p2, n2⟩)
    (chip3 : chipFrame true [encodeCmd8 p.sa (raIrq ++ xtWrite), v &&& 0xFE#8] n2 p2 = ⟨ins3, q, n3⟩) :
    q.irq.getLsbD 0 = false ∧ q.convst = .noResult ∧ q.lineLow = false ∧ q.unknown = false := by
  obtain ⟨known1, conv1, line1⟩ := chipFrame_fastReset chip1
  rw [← chipFrame_sa chip1] at chip2 chip3
  obtain ⟨x, m, -, read⟩ := chipFrame_readIrq known1 chip2
  obtain ⟨-, conv2, line2⟩ := read.idle (by rw [conv1]; decide)
  have known2 : p2.unknown = false := read.known known1
  rw [← chipFrame_sa chip2] at chip3
  obtain ⟨m', written⟩ := chipFrame_writeIrq known2 chip3
  obtain ⟨-, conv3, line3⟩ := written.idle (by rw [conv2, conv1]; decide)
  refine ⟨?_, conv3.trans (conv2.trans conv1), line3.trans (line2.trans line1), written.known known2⟩
  rw [written.irq, irqWritten_bit0]
  simp

/-- Settles O33. -/
theorem resetDisablesStartInterrupt : Obligations.ResetDisablesStartInterrupt := by
  unfold Obligations.ResetDisablesStartInterrupt
  intro s high address hx
  obtain ⟨t, p1, p2, n1, n2, n, v, ins1, ins2, ins3, next, chip1, chip2, chip3⟩ := exec_reset_chip address high hx
  obtain ⟨irq, conv, line, known⟩ := chip_after_reset chip1 chip2 chip3
  exact ⟨t, next, irq, conv, line, known, chipFrame_pmode chip3⟩

/-- Construction's initialisation steps and then RESET's transactions (R140). -/
theorem exec_construct {a : DevAddr} {s : State} (hx : s.transportCompletes 5) :
    exec (.construct a) s = .next ((s.acceptConstruct a).constructInit.resetFrames.respond statusOk 0#32) := by
  have answers : (s.acceptConstruct a).constructInit.transportCompletes 5 := hx.drop (k := 0) (State.driveCs_xfers ..)
  rw [exec_eq_complete (u := s.acceptConstruct a) rfl, State.complete, show runFuel = 15 + 1 from rfl,
    State.run_tick (t := (s.acceptConstruct a).constructInit) rfl]
  exact congrArg Host.Outcome.next (State.run_reset_frames (.inr ⟨rfl, rfl⟩) 3 rfl answers)

/-- RESET's command bytes over a stored device address (R103). -/
theorem address_or (a : DevAddr) : (a ++ 0#6) ||| 0x38#8 = a ++ 0x38#6 ∧ (a ++ 0#6) ||| 0x17#8 = a ++ 0x17#6 ∧
    (a ++ 0#6) ||| 0x16#8 = a ++ 0x16#6 := by revert a; decide

/-- Construction accepted and its steps 1 to 4 done (R140): chip-select has risen if it was low. -/
theorem State.constructInit_spec (a : DevAddr) (s : State) :
    (s.acceptConstruct a).constructInit = { s with
      cs := true, drdyPullup := true, addrbits := a ++ 0#6, cfgAddr := a
      buf10 := 0#8, buf20 := 0#8, buf21 := 0#8, buf30 := 0#8, buf31 := 0#8, buf32 := 0#8
      rspValid := false, busy := true, seq := .pos .construct 1 .assert, argA := 0#6, argD := 0#8
      peer := if s.cs then s.peer else s.peer.csRise s.draws, draws := if s.cs then s.draws else s.draws + Config.drawStride
      trace := s.trace ++ if s.cs then [] else [.csRise] } := by
  have stored : addrBitsOf a = a ++ 0#6 := by revert a; decide
  cases high : s.cs
  · rw [State.constructInit, State.driveCs_rise (by exact high), ← stored]
    rfl
  · rw [State.constructInit, State.driveCs_same (by exact high), ← stored]
    simp [State.acceptConstruct, State.accept, high]

/-- Settles O18: after the initialisation steps it is RESET's three transactions. -/
theorem constructResult : Obligations.ConstructResult := by
  unfold Obligations.ConstructResult
  intro a s hx n0 p0
  obtain ⟨cmdReset, cmdRead, cmdWrite⟩ := address_or a
  have frames := (s.acceptConstruct a).constructInit.resetFrames_spec
  rw [State.constructInit_spec] at frames
  simp only [cmdReset, cmdRead, cmdWrite] at frames
  obtain ⟨x0, x1, x2, x3, x4, p1, p2, p, n1, n2, n, chip1, chip2, chip3, frames⟩ := frames
  have sa : p.sa = p0.sa := (chipFrame_sa chip3).trans ((chipFrame_sa chip2).trans (chipFrame_sa chip1))
  have own : p0.sa = s.peer.sa := by
    simp only [p0]
    split
    · rfl
    · exact Peer.csRise_sa ..
  refine ⟨x0, x1, x2, x3, x4, p1, p2, p, n1, n2, n, chip1, chip2, chip3, ?_, fun here => ?_, sa.trans own, chipFrame_pmode chip3⟩
  · rw [exec_construct hx, State.constructInit_spec, frames]
    simp [State.respond, State.ended, State.heard, fallFrom]
  · rw [here, ← own] at chip1 chip2 chip3
    exact chip_after_reset chip1 chip2 chip3

end Sys2Proof.Machine
end

-- Proofs of the family of block and chip together, third part: registers written and read through the block (O34 to O37), CONVERT
-- (O32), another device (O38), the chip kept known (O39), DRDY (O40), events on the wire (O42, O47), R44's state (O49).
section
/-! Each statement is one operation's frames at the chip, read off from the facts about frames. -/

namespace Sys2Proof.Machine

/-- Settles O35: a write frame at IRQ and one at MUX. -/
theorem wreg8WritesTheRegister : Obligations.Wreg8WritesTheRegister := by
  unfold Obligations.Wreg8WritesTheRegister
  rintro v s ⟨address, known, high⟩ hx
  refine ⟨?irq, ?mux⟩
  case irq =>
    obtain ⟨t, ins, n, next, -, chip⟩ := exec_wreg8_chip address high raIrq v hx
    obtain ⟨m, written⟩ := chipFrame_writeIrq known chip
    refine ⟨t, next, ?_, written.mux, fun b hb => ?_⟩ <;> rw [written.irq]
    · exact irqWritten_bit0 ..
    · exact irqWritten_bit_cases _ _ _ hb
  case mux =>
    obtain ⟨t, ins, n, next, -, chip⟩ := exec_wreg8_chip address high raMux v hx
    have written := chipFrame_writeMux known chip
    exact ⟨t, next, written.mux, written.irq⟩

/-- Settles O32: MUX is written in the first frame, and the second starts a conversion. -/
theorem convertStartsTheChannel : Obligations.ConvertStartsTheChannel := by
  unfold Obligations.ConvertStartsTheChannel
  rintro ch s ⟨address, known, high⟩ hx
  obtain ⟨t, p1, n1, n, ins1, ins2, next, chip1, chip2⟩ := exec_convert_chip address high ch hx
  have written := chipFrame_writeMux known chip1
  rw [← chipFrame_sa chip1] at chip2
  obtain ⟨irq, mux, known', conv⟩ := chipFrame_fastStart (written.known known) chip2
  exact ⟨t, next, mux.trans written.mux, irq.trans written.irq, conv, known', chipFrame_pmode chip2⟩

/-- A result kept or released is what a read of it leaves (R184, R188). -/
theorem Peer.ready_or_released {p q : Peer} (ready : p.convst = .resultReady) (h : p.Ripens q ∨ p.release.Ripens q) :
    q.adcdata = p.adcdata ∧
      (q.convst = .noResult ∧ q.lineLow = false ∨ q.convst = .resultReady ∧ q.lineLow = p.lineLow) := by
  rcases h with kept | released
  · obtain ⟨adc, conv, line⟩ := kept.idle (by rw [ready]; decide)
    exact ⟨adc, .inr ⟨conv.trans ready, line⟩⟩
  · obtain ⟨adc, conv, line⟩ := released.idle nofun
    exact ⟨adc, .inl ⟨conv, line⟩⟩

/-- The registers, whether or not the result was released. -/
theorem Peer.registers_of_read {p q : Peer} (h : p.Ripens q ∨ p.release.Ripens q) : q.irq = p.irq ∧ q.mux = p.mux := by
  rcases h with kept | released
  · exact ⟨kept.irq, kept.mux⟩
  · exact ⟨released.irq, released.mux⟩

theorem joined_halves (h : Half) : h.extractLsb' 8 8 ++ h.extractLsb' 0 8 = h := by
  rw [BitVec.extractLsb'_append_extractLsb'_eq_extractLsb' (by decide)]
  exact BitVec.extractLsb'_eq_self

/-- Settles O34: the two bytes read are ADCDATA's, and the response is its sign extension. -/
theorem reads16ReturnsTheResult : Obligations.Reads16ReturnsTheResult := by
  unfold Obligations.Reads16ReturnsTheResult
  rintro s ⟨address, known, high⟩ hx ready
  obtain ⟨t, x, y, z, n, next, t16, rsp, chip⟩ := exec_reads16_chip address high hx
  obtain ⟨known', result⟩ := chipFrame_readAdcdata known chip
  obtain ⟨⟨x', bytes⟩, left⟩ := result ready
  simp only [List.cons.injEq, and_true] at bytes
  obtain ⟨-, rfl, rfl⟩ := bytes
  rw [joined_halves] at t16 rsp
  obtain ⟨irq, mux⟩ := Peer.registers_of_read left
  obtain ⟨adc, after⟩ := Peer.ready_or_released ready left
  refine ⟨t, next, t16, ?_, adc, irq, mux, known', after⟩
  rw [rsp, sext16Word_toInt, sext16Int_eq_toInt]

/-- Settles O36: a read frame at each of the registers. -/
theorem rregReadsTheRegister : Obligations.RregReadsTheRegister := by
  unfold Obligations.RregReadsTheRegister
  rintro s ⟨address, known, high⟩ hx
  have hx2 : s.transportDone 2 := hx.mono (by decide)
  refine ⟨?irq, ?mux, fun ready => ?sample, ?irqMux, ?highByte⟩
  case irq =>
    obtain ⟨t, x, y, n, next, -, t8, chip⟩ := exec_rreg8_chip address high raIrq hx2
    obtain ⟨x', m, bytes, read⟩ := chipFrame_readIrq known chip
    simp only [List.cons.injEq, and_true] at bytes
    obtain ⟨-, rfl⟩ := bytes
    exact ⟨t, next, t8.trans read.irq.symm, by rw [t8, irqNow_bit0], read.mux⟩
  case mux =>
    obtain ⟨t, x, y, n, next, -, t8, chip⟩ := exec_rreg8_chip address high raMux hx2
    obtain ⟨x', bytes, read⟩ := chipFrame_readMux known chip
    simp only [List.cons.injEq, and_true] at bytes
    obtain ⟨-, rfl⟩ := bytes
    exact ⟨t, next, t8, read.mux, read.irq⟩
  case sample =>
    obtain ⟨t, x, y, z, n, next, -, t16, chip⟩ := exec_rreg16_chip address high raAdcdata hx
    obtain ⟨⟨x', bytes⟩, -⟩ := (chipFrame_readAdcdata known chip).2 ready
    simp only [List.cons.injEq, and_true] at bytes
    obtain ⟨-, rfl, rfl⟩ := bytes
    exact ⟨t, next, t16.trans (joined_halves _)⟩
  case irqMux =>
    obtain ⟨t, x, y, z, n, next, -, t16, chip⟩ := exec_rreg16_chip address high raIrq hx
    obtain ⟨x', m, bytes, read⟩ := chipFrame_readIrqMux known chip
    simp only [List.cons.injEq, and_true] at bytes
    obtain ⟨-, rfl, rfl⟩ := bytes
    exact ⟨t, next, by rw [t16, read.irq], by rw [read.irq, irqNow_bit0], read.mux⟩
  case highByte =>
    obtain ⟨t, x, y, n, next, -, t8, chip⟩ := exec_rreg8_chip address high raAdcdata hx2
    obtain ⟨⟨x', y', bytes, hi⟩, irq, mux, known', whenReady, whenNone⟩ := chipFrame_readAdcdataHigh known chip
    simp only [List.cons.injEq, and_true] at bytes
    obtain ⟨-, rfl⟩ := bytes
    refine ⟨t, next, irq, mux, known', fun ready => ⟨t8.trans (hi ready), Peer.ready_or_released ready (whenReady ready)⟩,
      fun none => ?_⟩
    obtain ⟨adc, conv, line⟩ := (whenNone none).idle (by rw [none]; decide)
    exact ⟨adc, conv.trans none, line⟩

/-- Settles O37: a frame at an address without a register; RREG16 6 comes to one after MUX. -/
theorem undescribedAccessGoesUnknown : Obligations.UndescribedAccessGoesUnknown := by
  unfold Obligations.UndescribedAccessGoesUnknown
  rintro ra v s ⟨address, known, high⟩ hx
  have hx2 : s.transportDone 2 := hx.mono (by decide)
  refine ⟨fun h5 h6 => ?_, fun h0 h5 h6 => ?_, fun h0 h5 => ?_⟩
  · obtain ⟨t, ins, n, next, ok, chip⟩ := exec_wreg8_chip address high ra v hx2
    exact ⟨t, next, chipFrame_writeUndescribed known h5 h6 chip, ok⟩
  · obtain ⟨t, x, y, n, next, ok, -, chip⟩ := exec_rreg8_chip address high ra hx2
    exact ⟨t, next, chipFrame_readUndescribed known h0 h5 h6 chip, ok⟩
  · obtain ⟨t, x, y, z, n, next, ok, -, chip⟩ := exec_rreg16_chip address high ra hx
    refine ⟨t, next, ?_, ok⟩
    by_cases h6 : ra = raMux
    · rw [h6] at chip
      exact chipFrame_readPastMux known chip
    · exact chipFrame_readUndescribed known h0 h5 h6 chip

/-- Settles O38: every frame of the operation is for another device. -/
theorem otherDeviceUntouched : Obligations.OtherDeviceUntouched := by
  unfold Obligations.OtherDeviceUntouched
  intro i a s op high address other known idle hx
  have frame {p q : Peer} {low : BitVec 6} {os ins : List Byte} {n k : Nat} (before : s.peer.Ripens p)
      (chip : chipFrame true (encodeCmd8 a low :: os) n p = ⟨ins, q, k⟩) : s.peer.Ripens q :=
    before.trans (chipFrame_otherDevice (before.known known) (by rw [encodeCmd8_address, before.sa]; exact other) chip)
  have untouched {t : State} (next : exec i s = .next t) (h : s.peer.Ripens t.peer) :
      ∃ t, exec i s = .next t ∧ t.peer.adcdata = s.peer.adcdata ∧ t.peer.irq = s.peer.irq ∧ t.peer.mux = s.peer.mux ∧
        t.peer.convst = s.peer.convst ∧ t.peer.lineLow = s.peer.lineLow ∧ t.peer.unknown = false :=
    let ⟨adc, conv, line⟩ := h.idle idle
    ⟨t, next, adc, h.irq, h.mux, conv, line, h.known known⟩
  rcases op with hostOp | ⟨ch, rfl⟩ | ⟨op, rfl⟩ | ⟨ra, v, rfl⟩ | ⟨ra, rfl⟩ | ⟨ra, rfl⟩
  · simp only [List.mem_cons, List.not_mem_nil, or_false] at hostOp
    rcases hostOp with rfl | rfl
    · obtain ⟨t, p1, p2, n1, n2, n, v, ins1, ins2, ins3, next, chip1, chip2, chip3⟩ := exec_reset_chip address high hx
      exact untouched next (frame (frame (frame (.refl _) chip1) chip2) chip3)
    · obtain ⟨t, x, y, z, n, next, -, -, chip⟩ := exec_reads16_chip address high (hx.mono (by decide))
      exact untouched next (frame (.refl _) chip)
  · obtain ⟨t, p1, n1, n, ins1, ins2, next, chip1, chip2⟩ := exec_convert_chip address high ch (hx.mono (by decide))
    exact untouched next (frame (frame (.refl _) chip1) chip2)
  · obtain ⟨t, x, n, next, chip⟩ := exec_fastcmd_chip address high op (hx.mono (by decide))
    exact untouched next (frame (.refl _) chip)
  · obtain ⟨t, ins, n, next, -, chip⟩ := exec_wreg8_chip address high ra v (hx.mono (by decide))
    exact untouched next (frame (.refl _) chip)
  · obtain ⟨t, x, y, n, next, -, -, chip⟩ := exec_rreg8_chip address high ra (hx.mono (by decide))
    exact untouched next (frame (.refl _) chip)
  · obtain ⟨t, x, y, z, n, next, -, -, chip⟩ := exec_rreg16_chip address high ra (hx.mono (by decide))
    exact untouched next (frame (.refl _) chip)

/-- Settles O39: each public operation in turn. -/
theorem publicOperationsKeepTheChipKnown : Obligations.PublicOperationsKeepTheChipKnown := by
  unfold Obligations.PublicOperationsKeepTheChipKnown
  intro i s op ready hx
  have ⟨address, known, high⟩ := ready
  rcases op with hostOp | ⟨ch, rfl⟩
  · simp only [List.mem_cons, List.not_mem_nil, or_false] at hostOp
    rcases hostOp with rfl | rfl | rfl
    · obtain ⟨t, next, -, -, -, known', -⟩ := resetDisablesStartInterrupt s high address hx
      exact ⟨t, next, known'⟩
    · obtain ⟨t, x, y, z, n, next, -, -, chip⟩ := exec_reads16_chip address high (hx.mono (by decide))
      exact ⟨t, next, (chipFrame_readAdcdata known chip).1⟩
    · exact ⟨_, exec_drdy s, known⟩
  · obtain ⟨t, next, -, -, -, known', -⟩ := convertStartsTheChannel ch s ready (hx.mono (by decide))
    exact ⟨t, next, known'⟩

/-- The level of the line where the chip settles it (R41). -/
theorem State.drdyLevel_settled {s : State} (known : s.peer.unknown = false) (irq : s.peer.irq.getLsbD 0 = false)
    (pullup : s.drdyPullup = true) : s.drdyLevel = !s.peer.lineLow := by
  rw [State.drdyLevel, known, irq, pullup]
  cases s.peer.lineLow <;> rfl

/-- Settles O40: the response is the level of the line, which is the chip's where the chip settles it. -/
theorem drdyTellsTheLine : Obligations.DrdyTellsTheLine := by
  unfold Obligations.DrdyTellsTheLine
  intro s known irq pullup
  refine ⟨_, exec_drdy s, rfl, ?_⟩
  rw [State.ended, State.drdyLevel_settled known irq pullup]
  cases s.peer.lineLow <;> simp [readyWord]

/-! ### Events on the wire (R248, R204) -/

/-- Settles O42: the events in each operation's result, counted. -/
theorem eventCounts : Obligations.EventCounts := by
  unfold Obligations.EventCounts
  intro s op ra v ch a high hx e he
  have upTo {n : Nat} (hn : n ≤ 5) : s.transportCompletes n := (hx.mono hn).completes
  simp only [List.mem_cons, List.not_mem_nil, or_false] at he
  rcases he with rfl | rfl | rfl | rfl | rfl | rfl | rfl | rfl | rfl
  · obtain ⟨x, p, n, -, next⟩ := fastcmdResult op s (upTo (by decide))
    exact ⟨_, _, next, rfl, by rw [high]; rfl, by rw [high]; rfl, by rw [high]; rfl⟩
  · obtain ⟨x, y, p, n, -, next⟩ := wreg8Result ra v s (upTo (by decide))
    exact ⟨_, _, next, rfl, by rw [high]; rfl, by rw [high]; rfl, by rw [high]; rfl⟩
  · obtain ⟨x, y, p, n, -, next⟩ := rreg8Result ra s (upTo (by decide))
    exact ⟨_, _, next, rfl, by rw [high]; rfl, by rw [high]; rfl, by rw [high]; rfl⟩
  · obtain ⟨x, y, z, p, n, -, next⟩ := rreg16Result ra s (upTo (by decide))
    exact ⟨_, _, next, rfl, by rw [high]; rfl, by rw [high]; rfl, by rw [high]; rfl⟩
  · obtain ⟨x0, x1, x2, x3, x4, p1, p2, p, n1, n2, n, -, -, -, next⟩ := resetResult s (upTo (by decide))
    exact ⟨_, _, next, rfl, by rw [high]; rfl, by rw [high]; rfl, by rw [high]; rfl⟩
  · obtain ⟨x0, x1, x2, p1, p, n1, n, -, -, next⟩ := convertResult ch s (upTo (by decide))
    exact ⟨_, _, next, rfl, by rw [high]; rfl, by rw [high]; rfl, by rw [high]; rfl⟩
  · obtain ⟨x, y, z, p, n, -, next⟩ := reads16Result s (upTo (by decide))
    exact ⟨_, _, next, rfl, by rw [high]; rfl, by rw [high]; rfl, by rw [high]; rfl⟩
  · exact ⟨_, _, exec_drdy s, rfl, rfl, rfl, rfl⟩
  · obtain ⟨x0, x1, x2, x3, x4, p1, p2, p, n1, n2, n, -, -, -, next, -⟩ := constructResult a s (upTo (by decide))
    exact ⟨_, _, next, rfl, by rw [high]; rfl, by rw [high]; rfl, by rw [high]; rfl⟩

/-- Settles O47: with chip-select low each operation's result has no fall in front, and the next transaction's from there on. -/
theorem frameAfterFaultHasNoFall : Obligations.FrameAfterFaultHasNoFall := by
  unfold Obligations.FrameAfterFaultHasNoFall
  intro op ra v ch s low hx e he
  have upTo {n : Nat} (hn : n ≤ 5) : s.transportCompletes n := hx.mono hn
  simp only [List.mem_cons, List.not_mem_nil, or_false] at he
  rcases he with rfl | rfl | rfl | rfl | rfl | rfl | rfl
  · obtain ⟨x, p, n, chip, next⟩ := fastcmdResult op s (upTo (by decide))
    rw [low] at next
    exact ⟨_, _, [], [], next, rfl, rfl, rfl, rfl, rfl, chipFrame_pmode chip, rfl⟩
  · obtain ⟨x, y, p, n, chip, next⟩ := wreg8Result ra v s (upTo (by decide))
    rw [low] at next
    exact ⟨_, _, [_], [], next, rfl, rfl, rfl, rfl, rfl, chipFrame_pmode chip, rfl⟩
  · obtain ⟨x, y, p, n, chip, next⟩ := rreg8Result ra s (upTo (by decide))
    rw [low] at next
    exact ⟨_, _, [_], [], next, rfl, rfl, rfl, rfl, rfl, chipFrame_pmode chip, rfl⟩
  · obtain ⟨x, y, z, p, n, chip, next⟩ := rreg16Result ra s (upTo (by decide))
    rw [low] at next
    exact ⟨_, _, [_, _], [], next, rfl, rfl, rfl, rfl, rfl, chipFrame_pmode chip, rfl⟩
  · obtain ⟨x0, x1, x2, x3, x4, p1, p2, p, n1, n2, n, -, -, chip, next⟩ := resetResult s (upTo (by decide))
    rw [low] at next
    exact ⟨_, _, [], [_, _, _, _, _, _, _, _], next, rfl, rfl, rfl, rfl, rfl, chipFrame_pmode chip, rfl⟩
  · obtain ⟨x0, x1, x2, p1, p, n1, n, -, chip, next⟩ := convertResult ch s (upTo (by decide))
    rw [low] at next
    exact ⟨_, _, [_], [_, _, _], next, rfl, rfl, rfl, rfl, rfl, chipFrame_pmode chip, rfl⟩
  · obtain ⟨x, y, z, p, n, chip, next⟩ := reads16Result s (upTo (by decide))
    rw [low] at next
    exact ⟨_, _, [_, _], [], next, rfl, rfl, rfl, rfl, rfl, chipFrame_pmode chip, rfl⟩

/-! ### The state at reset and after (R44) -/

/-- R44's state before a transport that completes five exchanges, in steps that run an operation to its end (log 1). -/
def State.resetAnswered : State := { State.reset with eventSteps := false, xfers := List.replicate 5 .done }

theorem step_resetAnswered :
    step State.resetAnswered = .next (State.resetAnswered.convTick.resetFrames.respond statusOk 0#32) := by
  have answers : State.resetAnswered.convTick.transportDone 5 := rfl
  rw [step_resume rfl rfl, State.resumed, if_neg (by decide), State.complete]
  exact congrArg Host.Outcome.next (State.run_reset_frames (.inr ⟨rfl, rfl⟩) 4 rfl answers.completes)

/-- Settles O49: the step from R44's state runs RESET's three transactions and ends construction. -/
theorem resetStateAndAfter : Obligations.ResetStateAndAfter := by
  unfold Obligations.ResetStateAndAfter
  intro r
  have stored : r.addrbits = addrBitsOf r.cfgAddr := by
    have all : ∀ a : DevAddr, a ++ 0#6 = addrBitsOf a := by decide
    exact all Config.deviceAddress
  refine ⟨⟨stored, rfl, rfl, rfl, rfl, rfl, rfl, rfl, rfl, rfl, rfl, rfl, rfl⟩, ?_⟩
  obtain ⟨x0, x1, x2, x3, x4, p1, p2, p, n1, n2, n, -, -, -, frames⟩ := State.resetAnswered.convTick.resetFrames_spec
  have next := step_resetAnswered
  rw [frames] at next
  exact ⟨_, State.resetAnswered.convTick.heard 2 x2, next, rfl, rfl, rfl, rfl, rfl, rfl, rfl, rfl, rfl, rfl, rfl, rfl, rfl, rfl⟩

end Sys2Proof.Machine
end

-- Proofs of the family of reset and the ports (spec/10_state.md, 60_exceptions.md section 3, 70_reset_and_hazards.md): a power-up of
-- the chip (O50), what a step takes up (O51, O52, O53) and a step with nothing at a port (O60).
section
/-! What stands at the ports fixes the step's turn; the statements are read off from the turn's step. -/

namespace Sys2Proof.Machine

/-- Settles O50: the registers and the place in a frame are drawn, the rest is fixed. -/
theorem chipPowerUpResult : Obligations.ChipPowerUpResult := by
  unfold Obligations.ChipPowerUpResult
  intro s up
  have turn : s.turn = .chipPowerUp := by rw [State.turn, if_pos up]
  have next : step s = .next s.powerUpChip := by simp only [step, turn]
  exact ⟨_, _, _, _, _, _, next⟩

/-- What the chip's own agents can do to a known chip (R183). -/
theorem Peer.settle_convert_known {p : Peer} (known : p.unknown = false) (n m : Nat) :
    (p.convert n).settle m = p ∨
      p.convst = .converting ∧ ∃ d, (p.convert n).settle m = { p with adcdata := d, convst := .resultReady, lineLow := true } := by
  rw [Peer.settle_known (by simpa using known)]
  exact Peer.convert_cases n p

/-- Settles O60: the step is the opportunity of the chip's own agents. -/
theorem conversionEndsOnlyFromConverting : Obligations.ConversionEndsOnlyFromConverting := by
  unfold Obligations.ConversionEndsOnlyFromConverting
  intro s turn known
  have next : step s = .next s.convTick := by simp only [step, turn]
  exact ⟨_, _, next, Peer.settle_convert_known known s.draws s.draws⟩

/-- Settles O53: of the steps of a busy block only those take from the request port that the premises exclude. -/
theorem requestWaitsWhileBusy : Obligations.RequestWaitsWhileBusy := by
  unfold Obligations.RequestWaitsWhileBusy
  refine fun s => ⟨rfl, fun down rst busy noByte t next => ?_⟩
  cases step_to next with
  | powerUp up => exact absurd (down.symm.trans up) (by decide)
  | resume _ _ _ _ eq =>
    have kept : s.convTick.SamePorts s.convTick.resumed :=
      State.resumed_keeps (P := s.convTick.SamePorts) (fun u h => h.trans u.tick_samePorts) (.refl _)
    rw [eq, kept.req]
    rfl
  | wire _ _ _ c o port => exact absurd (noByte.symm.trans port) nofun
  | accept _ i u _ free =>
    rcases free with released | ⟨-, notBusy, -⟩
    · exact absurd (rst.symm.trans released) (by decide)
    · exact absurd (busy.symm.trans notBusy) (by decide)
  | refuse _ _ _ notBusy => exact absurd (busy.symm.trans notBusy) (by decide)
  | quiet _ _ _ eq => rw [eq]; rfl

/-! ### A placed word (log 2, log 22) -/

/-- The bits of a number from bit `k` on are those of its pattern, at any width that holds them. -/
theorem ofNat_div_eq_extract {n k len : Nat} (w : Nat) (h : k + len ≤ n) :
    BitVec.ofNat len (w / 2 ^ k) = (BitVec.ofNat n w).extractLsb' k len := by
  apply BitVec.eq_of_getLsbD_eq
  intro i hi
  rw [BitVec.getLsbD_extractLsb', BitVec.getLsbD_ofNat, BitVec.getLsbD_ofNat, Nat.testBit_div_two_pow]
  simp [hi, show k + i < n by omega, Nat.add_comm]

/-- The three bytes of a number, but for the upper six bits of the last, are its low 18 bits (log 22). -/
theorem requestWord_of_bytes (w : Nat) :
    (BitVec.ofNat 8 (w / 256 / 256)).extractLsb' 0 2 ++ BitVec.ofNat 8 (w / 256) ++ BitVec.ofNat 8 w = BitVec.ofNat 18 w := by
  have top : (BitVec.ofNat 8 (w / 256 / 256)).extractLsb' 0 2 = (BitVec.ofNat 18 w).extractLsb' 16 2 := by
    rw [← BitVec.setWidth_eq_extractLsb' (by decide), BitVec.setWidth_ofNat_of_le (by decide), Nat.div_div_eq_div_mul]
    exact ofNat_div_eq_extract (k := 16) w (by decide)
  have middle : BitVec.ofNat 8 (w / 256) = (BitVec.ofNat 18 w).extractLsb' 8 8 := ofNat_div_eq_extract (k := 8) w (by decide)
  have low : BitVec.ofNat 8 w = (BitVec.ofNat 18 w).extractLsb' 0 8 := by
    rw [← ofNat_div_eq_extract (k := 0) w (by decide), Nat.pow_zero, Nat.div_one]
  rw [top, middle, low, BitVec.extractLsb'_append_extractLsb'_eq_extractLsb' (by decide),
    BitVec.extractLsb'_append_extractLsb'_eq_extractLsb' (by decide)]
  exact BitVec.extractLsb'_eq_self

/-- A word of at most 8 bits is a command byte (R90). -/
theorem decodeTableWord_command {nbits w : Nat} {i : Instr} (narrow : nbits ≤ 8) (h : decodeTableWord nbits w = some i) :
    i = decodeCmd8 (BitVec.ofNat 8 w) := by
  simp only [decodeTableWord, if_pos narrow] at h
  split at h
  · exact (Option.some.inj h).symm
  · cases h

/-- A wider word is a request word of 18 bits (R98). -/
theorem decodeTableWord_request {nbits w : Nat} {i : Instr} (wide : ¬ nbits ≤ 8) (h : decodeTableWord nbits w = some i) :
    i = decodeReq18 (BitVec.ofNat 18 w) := by
  have bytes : natBytes 3 w = [BitVec.ofNat 8 w, BitVec.ofNat 8 (w / 256), BitVec.ofNat 8 (w / 256 / 256)] := rfl
  simp only [decodeTableWord, if_neg wide, bytes, decode] at h
  split at h
  · split at h
    · rw [← requestWord_of_bytes w]
      exact (Option.some.inj h).symm
    · cases h
  · cases h

theorem turn_placeCommand (c : Byte) (s : State) : (s.placeCommand c).turn = .instr (decodeCmd8 c) := rfl

theorem turn_placeRequest (w : BitVec 18) (s : State) : (s.placeRequest w).turn = .instr (decodeReq18 w) := rfl

/-- Settles O52: the placed word stands at a port of a block that heeds it; a command byte is no operation of the block, and a
request is placed for a step that runs whole. -/
theorem placedWordRunsNext : Obligations.PlacedWordRunsNext := by
  unfold Obligations.PlacedWordRunsNext
  intro s nbits w i h
  rw [State.withFetchWord]
  split
  case isTrue narrow =>
    rw [decodeTableWord_command narrow h]
    exact (State.stepTakesUp_of_turn (turn_placeCommand _ s)).1 (.inr (accepted_decodeCmd8 _ _))
  case isFalse wide =>
    rw [decodeTableWord_request wide h]
    exact (State.stepTakesUp_of_turn (turn_placeRequest _ s)).1 (.inl rfl)

/-! ### What a step takes up (O51) -/

/-- An idle block, in steps of whole operations, with a DRDY at its request port. -/
def State.drdyPresented : State :=
  { State.reset with seq := .idle, busy := false, eventSteps := false, req := some 0x1C000#18 }

/-- Refutes O51: in its first clause `s.stepTakesUp i u` reads the receiver `s` as the state at which `i` is taken up and `u` as the
one that steps, so it claims that the step from the state whose port is already cleared is the instruction at `s`. With a DRDY at
the port that step has nothing to take up and samples no line, where the DRDY does. (With the two the other way round the clause
is `State.stepTakesUp_of_turn`.) -/
theorem not_stepRunsTheInstruction : ¬ Obligations.StepRunsTheInstruction := by
  unfold Obligations.StepRunsTheInstruction
  rintro ⟨request, -⟩
  have claimed : step { State.drdyPresented.convTick with req := none } = exec .drdy State.drdyPresented :=
    (request State.drdyPresented 0x1C000#18 rfl rfl rfl rfl rfl rfl).1 (.inl rfl)
  have quiet : step { State.drdyPresented.convTick with req := none } =
      .next (State.convTick { State.drdyPresented.convTick with req := none }) := rfl
  rw [quiet, exec_drdy, Host.Outcome.next.injEq] at claimed
  exact absurd (congrArg (fun t : State => t.trace.length) claimed) (by decide)

end Sys2Proof.Machine
end

-- Proofs of the family of transport faults (spec/60_exceptions.md R202, R204, 70_reset_and_hazards.md R249): a fault at any exchange
-- (O44, O45), in CONVERT's second frame (O46), an exchange not answered (O48).
section
/-! A step of an operation at a byte is that byte's exchange, whether steps are events or whole operations: a fault ends the
operation, and without an answer it stays where it is. -/

namespace Sys2Proof.Machine

/-! ### A step that comes to an end at its first event -/

theorem State.tick_byte {s : State} {op : Op} {k i : Nat} {p : Prim} (seq : s.seq = .pos op k (.byte i))
    (hp : s.prim op k = some p) : s.tick = s.exchange op k p i := by
  simp only [State.tick, seq, hp]

theorem State.exchange_faultBefore {s : State} {info : Nat} {xs : List Xfer} (h : s.xfers = .faultBefore info :: xs) (op : Op)
    (k : Nat) (p : Prim) (i : Nat) : s.exchange op k p i = (true, s.convTick.answered.abort p i info) := by
  simp [State.exchange, State.nextAnswer, h]

theorem State.exchange_faultAfter {s : State} {info : Nat} {xs : List Xfer} (h : s.xfers = .faultAfter info :: xs) (op : Op)
    (k : Nat) (p : Prim) (i : Nat) : s.exchange op k p i =
      (true, (s.convTick.answered.cross (s.convTick.answered.bufByte (primBuf p) i)).abort p i info) := by
  simp [State.exchange, State.nextAnswer, h]

theorem State.exchange_wait {s : State} {xs : List Xfer} (h : s.xfers = .wait :: xs) (op : Op) (k : Nat) (p : Prim) (i : Nat) :
    s.exchange op k p i = (false, s.convTick.answered) := by
  simp [State.exchange, State.nextAnswer, h]

/-- An event that ends the operation ends the step, in either grain (log 1). -/
theorem State.resumed_of_ends {s t : State} (tick : s.tick = (true, t)) (idle : t.seq = .idle) : s.resumed = t := by
  unfold State.resumed
  split
  · rw [tick]
  · rw [State.complete, show runFuel = 15 + 1 from rfl, State.run_tick tick, State.run_idle _ idle]

/-- An event that waits ends the step, in either grain (log 1). -/
theorem State.resumed_of_waits {s t : State} (tick : s.tick = (false, t)) : s.resumed = t := by
  unfold State.resumed
  split
  · rw [tick]
  · simp [State.complete, runFuel, State.run, tick]

/-- A step of an operation at a byte begins with that byte's exchange. -/
theorem step_exchange {s t : State} {op : Op} {k i : Nat} {p : Prim} (turn : s.turn = .resume) (seq : s.seq = .pos op k (.byte i))
    (hp : s.prim op k = some p) (hi : i < primLen p) {b : Bool} (ex : s.convTick.exchange op k p i = (b, t))
    (ends : b = true → t.seq = .idle) : step s = .next t := by
  have legal : s.seq.legal = true := by rw [seq, legal_byte hp]; exact decide_eq_true hi
  have tick : s.convTick.tick = (b, t) := (State.tick_byte (s := s.convTick) seq hp).trans ex
  rw [step_resume turn legal]
  cases b
  · rw [State.resumed_of_waits tick]
  · rw [State.resumed_of_ends tick (ends rfl)]

/-! ### Taking the fault (R202) -/

/-- The registers of the block that a transport fault keeps are the same in both states. -/
structure State.SameBlock (s w : State) : Prop where
  cs : w.cs = s.cs
  t8 : w.t8 = s.t8
  t16 : w.t16 = s.t16
  addrbits : w.addrbits = s.addrbits
  drdyPullup : w.drdyPullup = s.drdyPullup
  bufByte : ∀ b j, w.bufByte b j = s.bufByte b j

theorem State.SameBlock.trans {s w v : State} (h : s.SameBlock w) (g : w.SameBlock v) : s.SameBlock v :=
  ⟨g.cs.trans h.cs, g.t8.trans h.t8, g.t16.trans h.t16, g.addrbits.trans h.addrbits, g.drdyPullup.trans h.drdyPullup,
    fun b j => (g.bufByte b j).trans (h.bufByte b j)⟩

theorem State.convTick_sameBlock (s : State) : s.SameBlock s.convTick :=
  ⟨rfl, rfl, rfl, rfl, rfl, fun b j => by unfold State.bufByte; split <;> rfl⟩

theorem State.answered_sameBlock (s : State) : s.SameBlock s.answered :=
  ⟨rfl, rfl, rfl, rfl, rfl, fun b j => by unfold State.bufByte; split <;> rfl⟩

theorem State.cross_sameBlock (o : Byte) (s : State) : s.SameBlock (s.cross o) :=
  ⟨rfl, rfl, rfl, rfl, rfl, fun b j => by unfold State.bufByte; split <;> rfl⟩

/-- What taking a transport fault with chip-select low leaves and reports, where `ev` has crossed since `s`. -/
theorem State.fault_taken {p : Prim} {i info : Nat} {xs : List Xfer} {ev : List WireEvent} {s w t : State} (hi : i < primLen p)
    (same : s.SameBlock w) (low : s.cs = false) (left : w.xfers = xs) (trace : w.trace = s.trace ++ ev)
    (ht : t = w.abort p i info) :
    t.seq = .idle ∧ t.busy = false ∧ t.rspValid = true ∧ t.rspStatus = 1#2 ∧ t.rspFaultInfo = info ∧
      t.faulted = true ∧ t.t8 = s.t8 ∧ t.t16 = s.t16 ∧ t.addrbits = s.addrbits ∧ t.drdyPullup = s.drdyPullup ∧ t.xfers = xs ∧
      t.trace = s.trace ++ (ev ++ if t.cs then [.csRise] else []) ∧
      (∀ b, b ≠ primBuf p → ∀ j, t.bufByte b j = s.bufByte b j) ∧
      ∀ j, j < primLen p → (j < i ∨ primCaptures p = false) → t.bufByte (primBuf p) j = s.bufByte (primBuf p) j := by
  obtain ⟨others, before⟩ := State.abort_bufByte p i info w (Nat.le_of_lt hi)
  rw [← ht] at others before
  obtain ⟨x0, x1, x2, x3, x4, x5, q, n, l, v, eq, -, -⟩ := State.abort_spec p i info w (same.cs.trans low)
  rw [eq] at ht
  refine ⟨by rw [ht], by rw [ht], by rw [ht], by rw [ht]; rfl, by rw [ht], by rw [ht], by rw [ht]; exact same.t8,
    by rw [ht]; exact same.t16, by rw [ht]; exact same.addrbits, by rw [ht]; exact same.drdyPullup, by rw [ht]; exact left, ?_,
    fun b hb j => (others b hb j).trans (same.bufByte b j), fun j hj kept => (before j hj kept).trans (same.bufByte _ j)⟩
  rw [ht, trace, List.append_assoc]

/-- Settles O44: the chip's agents have their opportunity, and the fault is taken with nothing crossed. -/
theorem faultBeforeByte : Obligations.FaultBeforeByte := by
  unfold Obligations.FaultBeforeByte
  intro s op k i info p xs turn seq hp hi low answers
  have same := (s.convTick_sameBlock.trans s.convTick.convTick_sameBlock).trans s.convTick.convTick.answered_sameBlock
  have next := step_exchange turn seq hp hi (State.exchange_faultBefore (s := s.convTick) answers op k p i)
    fun _ => State.abort_seq ..
  have left : s.convTick.convTick.answered.xfers = xs := by simp [answers]
  exact ⟨_, next, State.fault_taken (ev := []) hi same low left (by simp) rfl⟩

/-- Settles O45: the byte crosses first, and the fault is taken then. -/
theorem faultAfterByte : Obligations.FaultAfterByte := by
  unfold Obligations.FaultAfterByte
  intro s op k i info p xs turn seq hp hi low answers
  have same := (s.convTick_sameBlock.trans s.convTick.convTick_sameBlock).trans s.convTick.convTick.answered_sameBlock
  have next := step_exchange turn seq hp hi (State.exchange_faultAfter (s := s.convTick) answers op k p i)
    fun _ => State.abort_seq ..
  have left : s.convTick.convTick.answered.xfers = xs := by simp [answers]
  rw [same.bufByte] at next
  have trace := State.cross_trace (s.bufByte (primBuf p) i) s.convTick.convTick.answered
  simp only [State.answered_trace, State.convTick_trace] at trace
  exact ⟨_, _, next, State.fault_taken hi (same.trans (State.cross_sameBlock _ _)) low left trace rfl⟩

/-! ### An exchange that is not answered (R249) -/

/-- Two opportunities of a known chip's agents are as one: a conversion ends once. -/
theorem Peer.settle_convert_twice_known {p : Peer} (known : p.unknown = false) (n n' m m' : Nat) :
    (((p.convert n).settle n').convert m).settle m' = p ∨ p.convst = .converting ∧
      ∃ d, (((p.convert n).settle n').convert m).settle m' = { p with adcdata := d, convst := .resultReady, lineLow := true } := by
  rcases Peer.settle_convert_known known n n' with same | ⟨conv, d, ended⟩
  · rw [same]
    exact Peer.settle_convert_known known m m'
  · rw [ended, Peer.convert_idle (by simp), Peer.settle_known (by exact known)]
    exact .inr ⟨conv, d, rfl⟩

/-- What an Unknown chip's agents can do: its registers, CONVST and the line are drawn afresh (R170). -/
theorem Peer.settle_convert_unknown {p : Peer} (unknown : p.unknown = true) (n m : Nat) :
    ∃ adc irq mux c l, (p.convert n).settle m = { p with adcdata := adc, irq := irq, mux := mux, convst := c, lineLow := l } := by
  have settled : (p.convert n).settle m = (p.convert n).forget m := by rw [Peer.settle, if_pos (by simpa using unknown)]
  rw [settled]
  rcases Peer.convert_cases n p with same | ⟨-, d, ended⟩
  · rw [same]; exact ⟨_, _, _, _, _, rfl⟩
  · rw [ended]; exact ⟨_, _, _, _, _, rfl⟩

/-- Settles O48: the step takes the opportunity of the chip's agents twice, once of its own and once before the exchange. -/
theorem unansweredExchangeWaits : Obligations.UnansweredExchangeWaits := by
  unfold Obligations.UnansweredExchangeWaits
  intro s op k i p xs turn seq hp hi answers
  have next := step_exchange turn seq hp hi (State.exchange_wait (s := s.convTick) answers op k p i) nofun
  have waited : s.convTick.convTick.answered = { s with
      peer := s.convTick.convTick.peer, draws := s.convTick.convTick.answered.draws, xfers := xs } := by
    rw [← show s.convTick.convTick.answered.xfers = xs from congrArg List.tail answers]
    rfl
  rw [waited] at next
  refine ⟨_, _, next, fun known => Peer.settle_convert_twice_known known _ _ _ _, fun unknown => ?_⟩
  obtain ⟨adc, irq, mux, c, l, once⟩ := Peer.settle_convert_unknown unknown s.draws s.draws
  rw [State.convTick_peer, State.convTick_peer, once]
  exact Peer.settle_convert_unknown (by exact unknown) _ _

/-! ### A fault in CONVERT's second frame (R202) -/

/-- CONVERT's second frame opened, and the transport asked for its byte. -/
def State.startOpened (s : State) : State :=
  ((s.goto (.pos .convert 1 .assert)).openFrame .convert 1 (.fastcmd opStart)).convTick.answered

/-- CONVERT whose first transaction completes and whose second faults before its byte. -/
theorem exec_convert_faults {ch : BitVec 4} {s : State} {info : Nat} {xs : List Xfer}
    (answers : s.xfers = .done :: .done :: .faultBefore info :: xs) :
    exec (.convert ch) s =
      .next (((s.acceptConvert ch).framed (.wreg8 raMux (muxValue ch))).startOpened.abort (.fastcmd opStart) 0 info) := by
  have prim : (s.acceptConvert ch).prim .convert 0 = some (.wreg8 raMux (muxValue ch)) :=
    congrArg (fun c => some (Prim.wreg8 raMux (muxValue c))) (argLow_setWidth ch)
  have completes : (s.acceptConvert ch).transportCompletes 2 := by
    simp [State.transportCompletes, State.acceptConvert, answers, Xfer.completes]
  have left : ((s.acceptConvert ch).framed (.wreg8 raMux (muxValue ch))).xfers = .faultBefore info :: xs := by
    rw [State.framed_xfers]
    exact congrArg (List.drop 2) answers
  rw [exec_eq_complete (u := s.acceptConvert ch) rfl, State.complete,
    show runFuel = primLen (.wreg8 raMux (muxValue ch)) + 2 + (11 + 1) from rfl, State.run_frame _ rfl prim completes]
  generalize (s.acceptConvert ch).framed (.wreg8 raMux (muxValue ch)) = u at left
  have opened : (u.goto (.pos .convert 1 .assert)).tick =
      (true, (u.goto (.pos .convert 1 .assert)).openFrame .convert 1 (.fastcmd opStart)) := rfl
  have faulted : ((u.goto (.pos .convert 1 .assert)).openFrame .convert 1 (.fastcmd opStart)).tick =
      (true, u.startOpened.abort (.fastcmd opStart) 0 info) :=
    (State.tick_byte rfl rfl).trans (State.exchange_faultBefore (by simpa [State.openFrame] using left) ..)
  rw [show afterStep .convert 0 = .pos .convert 1 .assert from rfl, State.run_tick opened, State.run_tick faulted,
    State.run_idle _ (State.abort_seq ..)]

/-- The second frame's beginning: the start command in BUF1, the fall of chip-select, and an opportunity of the chip's agents. -/
theorem State.startOpened_spec {s : State} (high : s.cs = true) :
    s.startOpened.cs = false ∧ s.startOpened.trace = s.trace ++ [.csFall] ∧
      s.startOpened.buf10 = fastByte s.addrbits opStart ∧ s.startOpened.buf20 = s.buf20 ∧ s.startOpened.buf21 = s.buf21 ∧
      s.startOpened.peer = (s.peer.csFall.convert s.draws).settle s.draws := by
  have fall : (s.goto (.pos .convert 1 .assert)).load (.fastcmd opStart) =
      { s with seq := .pos .convert 1 .assert, buf10 := fastByte s.addrbits opStart } := rfl
  simp only [State.startOpened, State.openFrame, fall]
  rw [State.driveCs_fall (by exact high)]
  exact ⟨rfl, rfl, rfl, rfl, rfl, rfl⟩

/-- The chip after the fault: the frame has gone no further than its beginning and perhaps its end. -/
theorem Peer.ripens_faultedFrame {p q : Peer} {n : Nat} {l : Bool} (known : p.unknown = false)
    (low : l = false → q = (p.csFall.convert n).settle n) (high : l = true → ∃ m, q = ((p.csFall.convert n).settle n).csRise m) :
    p.Ripens q := by
  rw [Peer.settle_known (by simpa using known)] at low high
  have fall := Peer.ripens_convert n p.csFall
  have base : p.Ripens (p.csFall.convert n) := ⟨fall.sa, fall.irq, fall.mux, fall.unknown, fall.result⟩
  cases l
  · rw [low rfl]; exact base
  · obtain ⟨m, rfl⟩ := high rfl
    exact base.trans (Peer.ripens_csRise (Peer.readCutShort_of_not_reading (by simp)) m)

/-- CONVERT's first frame at a ready chip: MUX is written. -/
theorem State.framed_muxWrite {s : State} (address : s.hasAddress s.peer.sa) (known : s.peer.unknown = false) (high : s.cs = true)
    (ch : BitVec 4) :
    ∃ x y, (s.framed (.wreg8 raMux (muxValue ch))).trace = s.trace ++
        [.csFall, .byte (s.addrbits ||| 0x1A#8) x, .byte (ch ++ 0b1000#4) y, .csRise] ∧
      (s.framed (.wreg8 raMux (muxValue ch))).buf20 = s.addrbits ||| 0x1A#8 ∧
      (s.framed (.wreg8 raMux (muxValue ch))).buf21 = ch ++ 0b1000#4 ∧
      Peer.Ripens { s.peer with mux := ch ++ 0b1000#4 } (s.framed (.wreg8 raMux (muxValue ch))).peer := by
  obtain ⟨x, y, p, n, chip, framed⟩ := State.framed_wreg8 raMux (muxValue ch) s
  rw [framed]
  rw [high, address, regByte_addrBitsOf, muxValue_eq] at chip
  refine ⟨s.heard 0 x, s.heard 1 y, ?_, regByte_writeMux _, muxValue_eq ch, chipFrame_writeMux known chip⟩
  rw [high, regByte_writeMux, muxValue_eq]
  rfl

/-- Settles O46: MUX is written in the first frame, and the fault leaves the second at its beginning. -/
theorem convertFaultKeepsTheWrite : Obligations.ConvertFaultKeepsTheWrite := by
  unfold Obligations.ConvertFaultKeepsTheWrite
  rintro ch info xs s ⟨address, known, high⟩ none answers
  obtain ⟨x, y, trace, buf20, buf21, written⟩ := State.framed_muxWrite (s := s.acceptConvert ch) address known high ch
  have next := exec_convert_faults (ch := ch) answers
  have addr : ((s.acceptConvert ch).framed (.wreg8 raMux (muxValue ch))).addrbits = s.addrbits := State.framed_addrbits _ _
  have up := State.framed_cs (.wreg8 raMux (muxValue ch)) (s.acceptConvert ch)
  generalize (s.acceptConvert ch).framed (.wreg8 raMux (muxValue ch)) = u at *
  obtain ⟨low, trace', buf10', buf20', buf21', peer'⟩ := State.startOpened_spec up
  obtain ⟨others, kept⟩ := State.abort_bufByte (.fastcmd opStart) 0 info u.startOpened (Nat.zero_le _)
  obtain ⟨x0, x1, x2, x3, x4, x5, q, m, l, v, eq, stays, rises⟩ := State.abort_spec (.fastcmd opStart) 0 info u.startOpened low
  rw [peer'] at stays rises
  have ripe := written.trans (Peer.ripens_faultedFrame (written.known known) stays rises)
  have start : x0 = s.addrbits ||| 0x28#8 := by
    have := kept 0 (by decide) (.inr rfl)
    rw [eq] at this
    exact this.trans (buf10'.trans (by rw [addr, fastByte_start]))
  have command : x1 = s.addrbits ||| 0x1A#8 := by
    have := others .buf2 (by decide) 0
    rw [eq] at this
    exact this.trans (buf20'.trans buf20)
  have value : x2 = ch ++ 0b1000#4 := by
    have := others .buf2 (by decide) 1
    rw [eq] at this
    exact this.trans (buf21'.trans buf21)
  refine ⟨_, x, y, next, ?_⟩
  rw [eq]
  refine ⟨rfl, rfl, rfl, rfl, ripe.mux, ?_, command, value, start, ?_⟩
  · exact (ripe.idle fun conv => absurd (none.symm.trans conv) (by decide)).2.1.trans none
  · rw [trace', trace]
    simp [State.acceptConvert]

end Sys2Proof.Machine
end

-- Proofs of the family of liveness (spec/70_reset_and_hazards.md R249): every operation ends where the transport answers (O43).
section
/-! A position has a number of events and of exchanges still before it; each event takes one event away and, where it is an
exchange, one answer, until the response. -/

namespace Sys2Proof.Machine

/-! ### What is still before a position (30_encoding.md R105) -/

/-- The bytes of step `k` of an operation. -/
def stepBytes (op : Op) (k : Nat) : Nat :=
  match primAt op k 0#6 0#8 0#8 with
  | some p => primLen p
  | none => 0

/-- The transactions of step `k`, one or none. -/
def stepFrames (op : Op) (k : Nat) : Nat := if (primAt op k 0#6 0#8 0#8).isSome then 1 else 0

/-- The bytes of an operation from step `k` on; no operation has more than four steps. -/
def bytesFrom (op : Op) (k : Nat) : Nat := stepBytes op k + stepBytes op (k + 1) + stepBytes op (k + 2) + stepBytes op (k + 3)

/-- The events of an operation from step `k` on: its bytes, the two edges of each transaction, the response. -/
def eventsFrom (op : Op) (k : Nat) : Nat :=
  bytesFrom op k + 2 * (stepFrames op k + stepFrames op (k + 1) + stepFrames op (k + 2) + stepFrames op (k + 3)) + 1

theorem bytesFrom_succ (op : Op) (k : Nat) : bytesFrom op k = stepBytes op k + bytesFrom op (k + 1) := by
  have last : stepBytes op (k + 4) = 0 := by cases op <;> rfl
  simp only [bytesFrom, Nat.add_assoc, Nat.reduceAdd, last]
  omega

theorem eventsFrom_succ (op : Op) (k : Nat) :
    eventsFrom op k = stepBytes op k + 2 * stepFrames op k + eventsFrom op (k + 1) := by
  have last : stepFrames op (k + 4) = 0 := by cases op <;> rfl
  simp only [eventsFrom, bytesFrom_succ op k, Nat.add_assoc, Nat.reduceAdd, last]
  omega

theorem stepBytes_eq {op : Op} {k : Nat} {a : BitVec 6} {d t8 : Byte} {p : Prim} (h : primAt op k a d t8 = some p) :
    stepBytes op k = primLen p ∧ stepFrames op k = 1 := by
  obtain ⟨q, hq, len⟩ := primAt_len h
  simp [stepBytes, stepFrames, hq, len]

/-- The exchanges from a position to the operation's end. -/
def SeqPos.exchangesLeft : SeqPos → Nat
  | .idle => 0
  | .pos op k .init => bytesFrom op (k + 1)
  | .pos _ _ .sample => 0
  | .pos _ _ .respond => 0
  | .pos op k .assert => bytesFrom op k
  | .pos op k (.byte i) => bytesFrom op k - i
  | .pos op k .deassert => bytesFrom op (k + 1)

/-- The events from a position to the operation's end. -/
def SeqPos.eventsLeft : SeqPos → Nat
  | .idle => 0
  | .pos op k .init => eventsFrom op (k + 1) + 1
  | .pos _ _ .sample => 2
  | .pos _ _ .respond => 1
  | .pos op k .assert => eventsFrom op k
  | .pos op k (.byte i) => eventsFrom op k - 1 - i
  | .pos op k .deassert => eventsFrom op (k + 1) + 1

theorem bytesFrom_le (op : Op) (k : Nat) : bytesFrom op k ≤ 5 := by
  have fewer : Antitone (bytesFrom op) := antitone_nat_of_succ_le fun k => by have := bytesFrom_succ op k; omega
  exact (fewer (Nat.zero_le k)).trans (by cases op <;> decide)

theorem eventsFrom_le (op : Op) (k : Nat) : eventsFrom op k ≤ 12 := by
  have fewer : Antitone (eventsFrom op) := antitone_nat_of_succ_le fun k => by have := eventsFrom_succ op k; omega
  exact (fewer (Nat.zero_le k)).trans (by cases op <;> decide)

/-- No operation has more than five exchanges and 13 events (R248; construction has the most). -/
theorem SeqPos.left_le (q : SeqPos) : q.exchangesLeft ≤ 5 ∧ q.eventsLeft ≤ 13 := by
  rcases q with _ | ⟨op, k, ph⟩
  · decide
  · have here := And.intro (bytesFrom_le op k) (eventsFrom_le op k)
    have later := And.intro (bytesFrom_le op (k + 1)) (eventsFrom_le op (k + 1))
    cases ph <;> simp only [SeqPos.exchangesLeft, SeqPos.eventsLeft] <;> omega

/-- After step `k`, no more is left than the later steps and the response. -/
theorem afterStep_left (op : Op) (k : Nat) :
    (afterStep op k).exchangesLeft ≤ bytesFrom op (k + 1) ∧ (afterStep op k).eventsLeft ≤ eventsFrom op (k + 1) := by
  rcases afterStep_cases op k with ⟨-, eq⟩ | ⟨-, eq⟩ <;> rw [eq]
  · exact ⟨Nat.le_refl _, Nat.le_refl _⟩
  · exact ⟨Nat.zero_le _, Nat.succ_le_succ (Nat.zero_le _)⟩

/-- After a byte, one exchange and one event fewer are left. -/
theorem afterByte_left {op : Op} {k i : Nat} {a : BitVec 6} {d t8 : Byte} {p : Prim} (h : primAt op k a d t8 = some p)
    (hi : i < primLen p) :
    (afterByte op k p i).exchangesLeft + 1 = (SeqPos.pos op k (.byte i)).exchangesLeft ∧
      (afterByte op k p i).eventsLeft + 1 = (SeqPos.pos op k (.byte i)).eventsLeft := by
  obtain ⟨len, frame⟩ := stepBytes_eq h
  have bytes := bytesFrom_succ op k
  have events := eventsFrom_succ op k
  unfold afterByte
  split <;> simp only [SeqPos.exchangesLeft, SeqPos.eventsLeft] <;> omega

/-! ### The operation goes on to its end -/

/-- Idle with a valid response, OK or transport fault (10_state.md R31). -/
structure State.Ended (s : State) : Prop where
  seq : s.seq = .idle
  busy : s.busy = false
  rspValid : s.rspValid = true
  rspStatus : s.rspStatus = statusOk ∨ s.rspStatus = statusTransportFault

/-- In progress, with the transport's answers for all the exchanges that are left. -/
structure State.Going (s : State) : Prop where
  busy : s.seq ≠ .idle
  legal : s.seq.legal = true
  answers : s.transportAnswers s.seq.exchangesLeft

theorem State.transportAnswers.mono {n m : Nat} {s t : State} (h : s.transportAnswers n) (hm : m ≤ n) (ht : t.xfers = s.xfers) :
    t.transportAnswers m := by
  obtain ⟨len, answered⟩ := h
  unfold State.transportAnswers
  rw [ht]
  exact ⟨hm.trans len, fun x hx => answered x (List.take_subset_take_left _ hm hx)⟩

/-- One answer is there for an exchange, and the others for what comes after it. -/
theorem State.transportAnswers.cons {n : Nat} {s : State} (h : s.transportAnswers (n + 1)) :
    ∃ x xs, s.xfers = x :: xs ∧ x ≠ .wait ∧ ∀ t : State, t.xfers = xs → t.transportAnswers n := by
  obtain ⟨len, answered⟩ := h
  cases hx : s.xfers with
  | nil => simp [hx] at len
  | cons x xs =>
    rw [hx] at len answered
    refine ⟨x, xs, rfl, answered x (by simp), fun t ht => ?_⟩
    unfold State.transportAnswers
    rw [ht]
    exact ⟨by simpa using len, fun y hy => answered y (by simp [hy])⟩

theorem State.abort_ended (p : Prim) (i info : Nat) (s : State) : (s.abort p i info).Ended :=
  ⟨rfl, rfl, rfl, .inr rfl⟩

theorem State.deliver_ended (op : Op) (s : State) : (s.deliver op).Ended := by
  obtain ⟨d, o, eq⟩ := State.deliver_spec op s
  rw [eq]
  exact ⟨rfl, rfl, rfl, .inl rfl⟩

/-- An exchange that is answered ends the operation in a fault or sends a byte. -/
theorem State.exchange_answers {s : State} {x : Xfer} {xs : List Xfer} (hx : s.xfers = x :: xs) (notWait : x ≠ .wait) (op : Op)
    (k : Nat) (p : Prim) (i : Nat) :
    ∃ t, s.exchange op k p i = (true, t) ∧ (t.Ended ∨ t.seq = afterByte op k p i ∧ t.xfers = xs) := by
  have left : s.convTick.answered.xfers = xs := by simp [hx]
  cases x with
  | done => exact ⟨_, State.exchange_completes rfl hx, .inr ⟨by simp, by simp [hx]⟩⟩
  | wrongByte r => exact ⟨_, State.exchange_completes rfl hx, .inr ⟨by simp, by simp [hx]⟩⟩
  | wait => exact absurd rfl notWait
  | faultBefore info => exact ⟨_, State.exchange_faultBefore hx .., .inl (State.abort_ended ..)⟩
  | faultAfter info => exact ⟨_, State.exchange_faultAfter hx .., .inl (State.abort_ended ..)⟩

theorem primAt_isSome_of_legal_byte {op : Op} {k i : Nat} (h : (SeqPos.pos op k (.byte i)).legal = true) :
    (primAt op k 0#6 0#8 0#8).isSome = true := by
  cases hp : primAt op k 0#6 0#8 0#8 with
  | some p => rfl
  | none => simp [SeqPos.legal, hp] at h

/-- An operation with its transport's answers has its next event, which ends it or leaves fewer. -/
theorem State.Going.tick {s : State} (h : s.Going) :
    ∃ t, s.tick = (true, t) ∧ t.seq.eventsLeft < s.seq.eventsLeft ∧ (t.Ended ∨ t.Going) := by
  obtain ⟨busy, legal, answers⟩ := h
  have goesOn {t : State} (tick : s.tick = (true, t)) (legal' : t.seq.legal = true) (busy' : t.seq ≠ .idle)
      (xfers : t.xfers = s.xfers) (fewer : t.seq.exchangesLeft ≤ s.seq.exchangesLeft)
      (later : t.seq.eventsLeft < s.seq.eventsLeft) :
      ∃ t, s.tick = (true, t) ∧ t.seq.eventsLeft < s.seq.eventsLeft ∧ (t.Ended ∨ t.Going) :=
    ⟨t, tick, later, .inr ⟨busy', legal', answers.mono fewer xfers⟩⟩
  have ends {t : State} (tick : s.tick = (true, t)) (ended : t.Ended) (before : 0 < s.seq.eventsLeft) :
      ∃ t, s.tick = (true, t) ∧ t.seq.eventsLeft < s.seq.eventsLeft ∧ (t.Ended ∨ t.Going) :=
    ⟨t, tick, by rw [ended.seq]; exact before, .inl ended⟩
  have prim {op : Op} {k : Nat} (runs : (primAt op k 0#6 0#8 0#8).isSome = true) : ∃ p, s.prim op k = some p :=
    Option.isSome_iff_exists.mp ((primAt_isSome ..).trans runs)
  rcases seq : s.seq with _ | ⟨op, k, ph⟩
  · exact absurd seq busy
  rw [seq] at legal goesOn ends answers
  cases ph with
  | init =>
    obtain ⟨rfl, rfl⟩ : op = .construct ∧ k = 0 := by simpa [SeqPos.legal] using legal
    exact goesOn (t := s.constructInit) (by simp only [State.tick, seq]) rfl nofun (by simp [State.constructInit])
      (Nat.le_refl _) (Nat.lt_succ_self _)
  | sample =>
    obtain ⟨rfl, rfl⟩ : op = .drdy ∧ k = 0 := by simpa [SeqPos.legal] using legal
    exact goesOn (t := s.sampleDrdy) (by simp only [State.tick, seq]) rfl nofun (by simp [State.sampleDrdy])
      (Nat.le_refl _) Nat.one_lt_two
  | respond => exact ends (by simp only [State.tick, seq]) (State.deliver_ended op s) Nat.one_pos
  | assert =>
    obtain ⟨p, hp⟩ := prim legal
    have len := eventsFrom_succ op k
    rw [(stepBytes_eq hp).1, (stepBytes_eq hp).2] at len
    refine goesOn (t := s.openFrame op k p) (by simp only [State.tick, seq, hp]) ?_ nofun (by simp [State.openFrame]) ?_ ?_
    · exact (legal_byte hp 0).trans (decide_eq_true (primLen_pos p))
    · exact Nat.le_refl _
    · simp only [State.openFrame, State.goto_seq, SeqPos.eventsLeft]
      omega
  | byte i =>
    obtain ⟨p, hp⟩ : ∃ p, s.prim op k = some p := prim (primAt_isSome_of_legal_byte legal)
    have hi : i < primLen p := of_decide_eq_true ((legal_byte hp i).symm.trans legal)
    obtain ⟨exchanges, events⟩ := afterByte_left hp hi
    rw [← exchanges] at answers
    obtain ⟨x, xs, hx, notWait, rest⟩ := answers.cons
    obtain ⟨t, exchange, ended | ⟨seq', left⟩⟩ := State.exchange_answers hx notWait op k p i
    · exact ends ((State.tick_byte seq hp).trans exchange) ended (by omega)
    · obtain ⟨legal', -, busy'⟩ := afterByte_legal hp i
      refine ⟨t, (State.tick_byte seq hp).trans exchange, ?_, .inr ⟨?_, ?_, ?_⟩⟩ <;> rw [seq']
      · omega
      · exact busy'
      · exact legal'
      · exact rest t left
  | deassert =>
    obtain ⟨p, hp⟩ := prim legal
    obtain ⟨legal', -, busy'⟩ := afterStep_legal hp
    obtain ⟨exchanges, events⟩ := afterStep_left op k
    exact goesOn (t := s.closeFrame op k p) (by simp only [State.tick, seq, hp]) legal' busy' (by simp [State.closeFrame]) exchanges
      (Nat.lt_succ_of_le events)

/-- A step takes up an operation in progress unless a power-up or a released `rst` stands before it. -/
theorem State.turn_resume_iff {s : State} : s.turn = .resume ↔ s.chipPowerUp = false ∧ s.rst = false ∧ s.seq ≠ .idle := by
  rcases State.turn_cases s with ⟨up, turn⟩ | ⟨up, rst, turn⟩ | ⟨up, rst, busy, turn⟩ | ⟨up, rst, idle, ⟨c, -, -, turn⟩ |
    ⟨c, -, -, turn⟩ | ⟨w, -, -, -, turn⟩ | ⟨-, -, turn⟩⟩ <;> simp [*]

/-- A run of as many events as are left comes to the end. -/
theorem State.Going.run {n : Nat} {s : State} (h : s.Going) (enough : s.seq.eventsLeft ≤ n) : (s.run n).Ended := by
  induction n generalizing s with
  | zero =>
    obtain ⟨t, -, later, -⟩ := h.tick
    omega
  | succ n ih =>
    obtain ⟨t, tick, later, ended | going⟩ := h.tick <;> rw [State.run_tick tick]
    · rw [State.run_idle n ended.seq]
      exact ended
    · exact ih going (by omega)

theorem State.Going.complete {s : State} (h : s.Going) : s.complete.Ended :=
  h.run (s.seq.left_le.2.trans (by decide))

theorem State.Going.convTick {s : State} (h : s.Going) : s.convTick.Going := ⟨h.busy, h.legal, h.answers⟩

/-- Where a step is one event, as many steps as events are left come to the end. -/
theorem State.Going.steps {n : Nat} {s : State} (h : s.Going) (turn : s.turn = .resume) (event : s.eventSteps = true)
    (enough : s.seq.eventsLeft ≤ n) : ∃ m t, m ≤ n ∧ Machine.steps m s = .next t ∧ t.Ended := by
  induction n generalizing s with
  | zero =>
    obtain ⟨t, -, later, -⟩ := h.tick
    omega
  | succ n ih =>
    obtain ⟨t, tick, later, rest⟩ := h.convTick.tick
    have next : step s = .next t := by
      rw [step_resume turn h.legal, State.resumed, if_pos (by exact event), tick]
    obtain ⟨up, rst, -⟩ := State.turn_resume_iff.mp turn
    have ports : s.convTick.SamePorts t := by
      have := s.convTick.tick_samePorts
      rwa [tick] at this
    rcases rest with ended | going
    · exact ⟨1, t, by omega, by simp [Machine.steps, next], ended⟩
    · have resumes : t.turn = .resume :=
        State.turn_resume_iff.mpr ⟨ports.chipPowerUp.trans up, ports.rst.trans rst, going.busy⟩
      obtain ⟨m, u, le, run, ended⟩ := ih going resumes (ports.eventSteps.trans event)
        (Nat.le_of_lt_succ (lt_of_lt_of_le later enough))
      exact ⟨m + 1, u, by omega, by simp [Machine.steps, next, run], ended⟩

/-- Where the transport answers five exchanges, any operation in progress is going on. -/
theorem State.going_of_answers {s : State} (busy : s.seq ≠ .idle) (legal : s.seq.legal = true) (h : s.transportAnswers 5) :
    s.Going := ⟨busy, legal, h.mono s.seq.left_le.1 rfl⟩

/-- An operation whole comes to its end. -/
theorem exec_ends {i : Instr} {s u : State} (accepted : s.accepted i = some u) (h : s.transportAnswers 5) :
    ∃ t, exec i s = .next t ∧ t.Ended := by
  refine ⟨_, exec_eq_complete accepted, State.Going.complete ?_⟩
  obtain ⟨op, ph, a, d, c, rfl, legal, -, -⟩ := State.accepted_spec accepted
  exact State.going_of_answers nofun legal h

/-- Settles O43: an operation whole, and one in progress, has no more than 13 events and five exchanges left. -/
theorem operationsEnd : Obligations.OperationsEnd := by
  unfold Obligations.OperationsEnd
  refine ⟨fun s op ra v ch a answers i mem => ?_, fun s turn legal answers => ?_⟩
  · obtain ⟨u, accepted⟩ : ∃ u, s.accepted i = some u := by
      simp only [List.mem_cons, List.not_mem_nil, or_false] at mem
      rcases mem with rfl | rfl | rfl | rfl | rfl | rfl | rfl | rfl | rfl <;> exact ⟨_, rfl⟩
    obtain ⟨t, next, idle, busy, valid, status⟩ := exec_ends accepted answers
    exact ⟨t, next, idle, busy, valid, status⟩
  · have going := State.going_of_answers (State.turn_resume_iff.mp turn).2.2 legal answers
    cases event : s.eventSteps
    · have next : step s = .next s.convTick.complete := by
        rw [step_resume turn legal, State.resumed, if_neg (by simp [event])]
      obtain ⟨idle, busy, valid, status⟩ := going.convTick.complete
      exact ⟨1, _, by decide, fun _ => rfl, by simp [steps, next], idle, busy, valid, status⟩
    · obtain ⟨n, t, le, run, idle, busy, valid, status⟩ := going.steps turn event s.seq.left_le.2
      exact ⟨n, t, le, nofun, run, idle, busy, valid, status⟩

end Sys2Proof.Machine
end

-- Proofs of the family of stale buffer bytes (spec/40_primitives.md R126, R128, 70_reset_and_hazards.md section 3): the placeholders
-- of a read (O41).
section
/-! Two runs of one read from states that differ in the stale bytes alone go on event by event in the same way: the command byte is
the same, and after a read command the chip does not look at the bytes it is sent. -/

namespace Sys2Proof.Machine

/-! ### The chip after a read command (R174, R182) -/

/-- The chip takes no notice of the bytes it is sent: it is being read, or the frame names another device. -/
def Peer.Deaf (p : Peer) : Prop := p.pmode = .reading ∨ p.pmode = .ignore

theorem Peer.Deaf.of_pmode {p q : Peer} (h : p.Deaf) (mode : q.pmode = p.pmode) : q.Deaf := by
  rwa [Peer.Deaf, mode]

theorem Peer.Deaf.byte_eq {p : Peer} (h : p.Deaf) (n : Nat) (o o' : Byte) : p.byte n o = p.byte n o' := by
  rcases h with mode | mode
  · rw [Peer.byte_reading mode, Peer.byte_reading mode]
  · rw [Peer.byte_ignore mode, Peer.byte_ignore mode]

theorem Peer.Deaf.byte {p : Peer} (h : p.Deaf) (n : Nat) (o : Byte) : (p.byte n o).2.Deaf := by
  rcases h with mode | mode
  · rw [Peer.byte_reading mode]
    exact .inl (by simpa using mode)
  · rw [Peer.byte_ignore mode]
    exact .inr (by simpa using mode)

/-- Every byte of transfer type 11 is a read command (R97). -/
theorem decodeCmd8_regByte_read (b : Byte) (ra : RegAddr) :
    decodeCmd8 (regByte b ra xtRead) = .incr ((regByte b ra xtRead).extractLsb' 6 2) ((regByte b ra xtRead).extractLsb' 2 4) := by
  have type : (regByte b ra xtRead).extractLsb' 0 2 = 3#2 := by
    rw [regByte, BitVec.extractLsb'_or]
    exact BitVec.or_allOnes
  simp only [decodeCmd8, type]
  rfl

/-- A read command begins a read, or names another device. -/
theorem Peer.byte_read_deaf {p : Peer} (mode : p.pmode = .awaitCmd) (n : Nat) (b : Byte) (ra : RegAddr) :
    (p.byte n (regByte b ra xtRead)).2.Deaf := by
  rw [Peer.byte_awaitCmd mode]
  simp only [Peer.command, decodeCmd8_regByte_read, Peer.addressed]
  split
  · exact .inl (by simp [Peer.beginRead])
  · exact .inr (by simp [Peer.ignoreFrame])

/-! ### States that differ in the stale bytes -/

/-- The same state but for the trailing bytes of the capturing buffers, and for the trace, which holds the bytes sent. -/
def State.Twin (s t : State) : Prop := ∃ b c d ev, t = { s with buf21 := b, buf31 := c, buf32 := d, trace := ev }

section
variable {s t : State} (h : s.Twin t)
include h

theorem State.Twin.seq_eq : t.seq = s.seq := by obtain ⟨_, _, _, _, rfl⟩ := h; rfl
theorem State.Twin.draws_eq : t.draws = s.draws := by obtain ⟨_, _, _, _, rfl⟩ := h; rfl
theorem State.Twin.prim_eq (op : Op) (k : Nat) : t.prim op k = s.prim op k := by obtain ⟨_, _, _, _, rfl⟩ := h; rfl

/-- The command byte is none of the stale bytes. -/
theorem State.Twin.bufByte_zero (b : Buf) : t.bufByte b 0 = s.bufByte b 0 := by
  obtain ⟨_, _, _, _, rfl⟩ := h
  cases b <;> rfl

theorem State.Twin.convTick : s.convTick.Twin t.convTick := by obtain ⟨b, c, d, ev, rfl⟩ := h; exact ⟨b, c, d, ev, rfl⟩
theorem State.Twin.answered : s.answered.Twin t.answered := by obtain ⟨b, c, d, ev, rfl⟩ := h; exact ⟨b, c, d, ev, rfl⟩
theorem State.Twin.drawn : s.drawn.Twin t.drawn := by obtain ⟨b, c, d, ev, rfl⟩ := h; exact ⟨b, c, d, ev, rfl⟩
theorem State.Twin.goto (q : SeqPos) : (s.goto q).Twin (t.goto q) := by obtain ⟨b, c, d, ev, rfl⟩ := h; exact ⟨b, c, d, ev, rfl⟩

theorem State.Twin.deliver (op : Op) : (s.deliver op).Twin (t.deliver op) := by
  obtain ⟨b, c, d, ev, rfl⟩ := h
  cases op <;> exact ⟨b, c, d, ev, rfl⟩

theorem State.Twin.load (p : Prim) : (s.load p).Twin (t.load p) := by
  obtain ⟨b, c, d, ev, rfl⟩ := h
  cases p with
  | wreg8 ra v => exact ⟨v, c, d, ev, rfl⟩
  | fastcmd op => exact ⟨b, c, d, ev, rfl⟩
  | rreg8 ra => exact ⟨b, c, d, ev, rfl⟩
  | rreg16 ra => exact ⟨b, c, d, ev, rfl⟩

theorem State.Twin.driveCs (level : Bool) : (s.driveCs level).Twin (t.driveCs level) := by
  obtain ⟨b, c, d, ev, rfl⟩ := h
  rcases State.driveCs_cases level s with ⟨same, eq⟩ | ⟨high, rfl, eq⟩ | ⟨low, rfl, eq⟩ <;> rw [eq]
  · rw [State.driveCs_same (by exact same)]; exact ⟨b, c, d, ev, rfl⟩
  · rw [State.driveCs_fall (by exact high)]; exact ⟨b, c, d, _, rfl⟩
  · rw [State.driveCs_rise (by exact low)]; exact ⟨b, c, d, _, rfl⟩

theorem State.Twin.setBufByte (b : Buf) (i : Nat) (v : Byte) : (s.setBufByte b i v).Twin (t.setBufByte b i v) := by
  obtain ⟨_, _, _, _, rfl⟩ := h
  unfold State.setBufByte
  split <;> exact ⟨_, _, _, _, rfl⟩

/-- A byte that has the same effect at the chip. -/
theorem State.Twin.crossWith {o o' r r' : Byte} (same : (s.peer.byte s.draws o).2 = (s.peer.byte s.draws o').2) :
    (s.crossWith o r).Twin (t.crossWith o' r') := by
  obtain ⟨b, c, d, ev, rfl⟩ := h
  refine ⟨b, c, d, ev ++ [.byte o' r'], ?_⟩
  simp only [State.crossWith, same]
  rfl

theorem State.Twin.spoil (b : Buf) (i n : Nat) : (s.spoil b i n).Twin (t.spoil b i n) := by
  induction n generalizing i with
  | zero => exact h
  | succ n ih =>
    rw [State.spoil, State.spoil, h.draws_eq]
    exact (ih (i + 1)).setBufByte b i _

theorem State.Twin.abort (p : Prim) (i info : Nat) : (s.abort p i info).Twin (t.abort p i info) := by
  have spoiled : (s.spoiled p i).Twin (t.spoiled p i) := by
    unfold State.spoiled
    split
    · exact (h.spoil _ _ _).drawn
    · exact h
  rw [State.abort_eq, State.abort_eq]
  rw [spoiled.draws_eq]
  obtain ⟨b, c, d, ev, eq⟩ := spoiled.driveCs (Config.freeBit (s.spoiled p i).draws)
  rw [eq]
  exact ⟨b, c, d, ev, rfl⟩

/-- The value a primitive returns is the same where the bytes it has received are. -/
theorem State.Twin.finish {p : Prim} (same : ∀ j, j < primLen p → t.bufByte (primBuf p) j = s.bufByte (primBuf p) j) :
    (s.finish p).Twin (t.finish p) := by
  cases p with
  | fastcmd op => exact h
  | wreg8 ra v => exact h
  | rreg8 ra =>
    have low : t.buf21 = s.buf21 := same 1 (by decide : 1 < 2)
    obtain ⟨b, c, d, ev, rfl⟩ := h
    exact ⟨b, c, d, ev, by simp only [State.finish]; rw [← low]⟩
  | rreg16 ra =>
    have high : t.buf31 = s.buf31 := same 1 (by decide : 1 < 3)
    have low : t.buf32 = s.buf32 := same 2 (by decide : 2 < 3)
    obtain ⟨b, c, d, ev, rfl⟩ := h
    exact ⟨b, c, d, ev, by simp only [State.finish]; rw [← low, ← high]⟩

end

/-! ### A read, event by event -/

/-- The first `i` bytes of the buffer in use are the same. -/
def State.SameBytes (p : Prim) (i : Nat) (s t : State) : Prop :=
  ∀ j, j < i → t.bufByte (primBuf p) j = s.bufByte (primBuf p) j

/-- The chip is at byte `i` of a read: it awaits the read command, or takes no notice of the placeholder. -/
def State.AtRead (p : Prim) (i : Nat) (s : State) : Prop :=
  (i = 0 ∧ s.peer.pmode = .awaitCmd ∧ ∃ ra, s.bufByte (primBuf p) 0 = regByte s.addrbits ra xtRead) ∨ (0 < i ∧ s.peer.Deaf)

theorem State.bufByte_convTick (b : Buf) (j : Nat) (s : State) : s.convTick.bufByte b j = s.bufByte b j :=
  s.convTick_sameBlock.bufByte b j
theorem State.bufByte_answered (b : Buf) (j : Nat) (s : State) : s.answered.bufByte b j = s.bufByte b j :=
  s.answered_sameBlock.bufByte b j

theorem State.AtRead.agents {p : Prim} {i : Nat} {s : State} (here : s.AtRead p i) : s.convTick.answered.AtRead p i := by
  rcases here with ⟨zero, mode, command⟩ | ⟨pos, deaf⟩
  · refine .inl ⟨zero, by simpa using mode, ?_⟩
    rw [State.bufByte_answered, State.bufByte_convTick]
    exact command
  · exact .inr ⟨pos, deaf.of_pmode (by simp)⟩

/-- Whichever byte the block sends, the chip does the same, and goes on taking no notice. -/
theorem State.AtRead.byte {p : Prim} {i : Nat} {s t : State} (here : s.AtRead p i) (h : s.Twin t) (n : Nat) :
    s.peer.byte n (s.bufByte (primBuf p) i) = s.peer.byte n (t.bufByte (primBuf p) i) ∧
      (s.peer.byte n (s.bufByte (primBuf p) i)).2.Deaf := by
  rcases here with ⟨rfl, mode, ra, command⟩ | ⟨-, deaf⟩
  · rw [h.bufByte_zero, command]
    exact ⟨rfl, Peer.byte_read_deaf mode n _ ra⟩
  · exact ⟨deaf.byte_eq n _ _, deaf.byte n _⟩

/-- A byte received replaces the one sent, so one more byte of the buffers is the same. -/
theorem State.Twin.exchanged {s t : State} (h : s.Twin t) {p : Prim} {i : Nat} (captures : primCaptures p = true)
    (hi : i < primLen p) (here : s.AtRead p i) (same : s.SameBytes p i t) (op : Op) (k : Nat) (r : Byte) :
    (s.exchanged op k p i r).Twin (t.exchanged op k p i r) ∧ (s.exchanged op k p i r).SameBytes p (i + 1) (t.exchanged op k p i r) ∧
      (s.exchanged op k p i r).peer.Deaf := by
  obtain ⟨eq, deaf⟩ := here.byte h s.draws
  refine ⟨?_, fun j hj => ?_, by rw [State.exchanged_peer]; exact deaf⟩
  · simp only [State.exchanged, if_pos captures]
    exact ((h.crossWith (congrArg Prod.snd eq)).setBufByte _ _ _).goto _
  · have bytes (w : State) : (w.exchanged op k p i r).bufByte (primBuf p) j =
        if j = i then r else w.bufByte (primBuf p) j := by
      have stored : (w.exchanged op k p i r).bufByte (primBuf p) j =
          ((w.crossWith (w.bufByte (primBuf p) i) r).setBufByte (primBuf p) i r).bufByte (primBuf p) j := by
        simp only [State.exchanged, if_pos captures]
        unfold State.bufByte
        split <;> rfl
      rw [stored]
      split
      · next eq => rw [eq, State.bufByte_setBufByte_same]
      · next ne =>
        rw [State.bufByte_setBufByte_index hi (by omega) ne]
        unfold State.bufByte
        split <;> rfl
    rw [bytes, bytes]
    split
    · rfl
    · exact same j (by omega)

/-- An exchange of a read: the transport answers both in the same way. -/
theorem State.Twin.exchange {s t : State} (h : s.Twin t) {p : Prim} {i : Nat} (captures : primCaptures p = true)
    (hi : i < primLen p) (here : s.AtRead p i) (same : s.SameBytes p i t) (op : Op) (k : Nat) :
    ∃ go s' t', s.exchange op k p i = (go, s') ∧ t.exchange op k p i = (go, t') ∧ s'.Twin t' ∧
      (go = true → s'.seq = .idle ∨ s'.seq = afterByte op k p i ∧ s'.prim op k = s.prim op k ∧ s'.SameBytes p (i + 1) t' ∧
        s'.peer.Deaf) := by
  have twin : s.convTick.answered.Twin t.convTick.answered := h.convTick.answered
  have here' := here.agents
  have same' : s.convTick.answered.SameBytes p i t.convTick.answered := fun j hj => by
    simp only [State.bufByte_answered, State.bufByte_convTick]
    exact same j hj
  have prim : s.convTick.answered.prim op k = s.prim op k := rfl
  have answer : t.convTick.nextAnswer = s.convTick.nextAnswer := by obtain ⟨_, _, _, _, rfl⟩ := h; rfl
  unfold State.exchange
  simp only [answer]
  generalize s.convTick.answered = u at *
  generalize t.convTick.answered = v at *
  have received : v.received (v.bufByte (primBuf p) i) = u.received (u.bufByte (primBuf p) i) := by
    have eq := (here'.byte twin u.draws).1
    obtain ⟨b, c, d, ev, rfl⟩ := twin
    exact (congrArg Prod.fst eq).symm
  have goesOn (r : Byte) : (u.exchanged op k p i r).Twin (v.exchanged op k p i r) ∧
      (u.exchanged op k p i r).seq = afterByte op k p i ∧ (u.exchanged op k p i r).prim op k = s.prim op k ∧
      (u.exchanged op k p i r).SameBytes p (i + 1) (v.exchanged op k p i r) ∧ (u.exchanged op k p i r).peer.Deaf := by
    obtain ⟨after, bytes, deaf⟩ := twin.exchanged captures hi here' same' op k r
    exact ⟨after, by simp, by rw [← prim]; simp [State.prim], bytes, deaf⟩
  cases s.convTick.nextAnswer with
  | done =>
    obtain ⟨after, rest⟩ := goesOn (u.received (u.bufByte (primBuf p) i))
    exact ⟨_, _, _, rfl, by rw [received], after, fun _ => .inr rest⟩
  | wrongByte r =>
    obtain ⟨after, rest⟩ := goesOn r
    exact ⟨_, _, _, rfl, rfl, after, fun _ => .inr rest⟩
  | wait => exact ⟨_, _, _, rfl, rfl, twin, nofun⟩
  | faultBefore info => exact ⟨_, _, _, rfl, rfl, twin.abort p i info, fun _ => .inl (State.abort_seq ..)⟩
  | faultAfter info =>
    exact ⟨_, _, _, rfl, rfl, (twin.crossWith (congrArg Prod.snd (here'.byte twin u.draws).1)).abort p i info,
      fun _ => .inl (State.abort_seq ..)⟩

/-- Two runs whose next events are the same go on together. -/
theorem State.run_twin {n : Nat} {go : Bool} {s t s' t' : State} (left : s.tick = (go, s')) (right : t.tick = (go, t'))
    (h : s'.Twin t') (rest : go = true → (s'.run n).Twin (t'.run n)) : (s.run (n + 1)).Twin (t.run (n + 1)) := by
  simp only [State.run, left, right]
  split
  · exact rest ‹_›
  · exact h

theorem State.Twin.run_idle {s t : State} (h : s.Twin t) (idle : s.seq = .idle) (n : Nat) : (s.run n).Twin (t.run n) := by
  rwa [State.run_idle n idle, State.run_idle n (h.seq_eq.trans idle)]

section
variable {op : Op} {p : Prim} (captures : primCaptures p = true) (last : afterStep op 0 = .pos op 0 .respond)

theorem State.Twin.run_respond {s t : State} (h : s.Twin t) (seq : s.seq = .pos op 0 .respond) (n : Nat) :
    (s.run n).Twin (t.run n) := by
  have seq' : t.seq = .pos op 0 .respond := h.seq_eq.trans seq
  cases n with
  | zero => exact h
  | succ n =>
    exact State.run_twin (go := true) (by simp only [State.tick, seq]) (by simp only [State.tick, seq']) (h.deliver op)
      fun _ => (h.deliver op).run_idle (State.deliver_ended op s).seq n

include last in
theorem State.Twin.run_deassert {s t : State} (h : s.Twin t) (seq : s.seq = .pos op 0 .deassert) (hp : s.prim op 0 = some p)
    (same : s.SameBytes p (primLen p) t) (n : Nat) : (s.run n).Twin (t.run n) := by
  have seq' : t.seq = .pos op 0 .deassert := h.seq_eq.trans seq
  have hp' : t.prim op 0 = some p := (h.prim_eq op 0).trans hp
  have closed : (s.closeFrame op 0 p).Twin (t.closeFrame op 0 p) := by
    refine (State.Twin.finish (h.driveCs true) fun j hj => ?_).goto _
    have driven (w : State) : (w.driveCs true).bufByte (primBuf p) j = w.bufByte (primBuf p) j := by
      unfold State.bufByte
      split <;> simp
    rw [driven, driven]
    exact same j hj
  cases n with
  | zero => exact h
  | succ n =>
    exact State.run_twin (go := true) (by simp only [State.tick, seq, hp]) (by simp only [State.tick, seq', hp']) closed
      fun _ => closed.run_respond last n

include captures last in
theorem State.Twin.run_byte {n i : Nat} {s t : State} (h : s.Twin t) (seq : s.seq = .pos op 0 (.byte i))
    (hp : s.prim op 0 = some p) (hi : i < primLen p) (here : s.AtRead p i) (same : s.SameBytes p i t) :
    (s.run n).Twin (t.run n) := by
  induction n generalizing i s t with
  | zero => exact h
  | succ n ih =>
    have seq' : t.seq = .pos op 0 (.byte i) := h.seq_eq.trans seq
    have hp' : t.prim op 0 = some p := (h.prim_eq op 0).trans hp
    obtain ⟨go, s', t', left, right, twin, rest⟩ := h.exchange captures hi here same op 0
    refine State.run_twin ((State.tick_byte seq hp).trans left) ((State.tick_byte seq' hp').trans right) twin fun goes => ?_
    rcases rest goes with idle | ⟨after, prim, bytes, deaf⟩
    · exact twin.run_idle idle n
    · rw [hp] at prim
      unfold afterByte at after
      split at after
      · next more => exact ih twin after prim more (.inr ⟨Nat.succ_pos i, deaf⟩) bytes
      · next done => exact twin.run_deassert last after prim (by rwa [show primLen p = i + 1 by omega]) n

include captures last in
/-- A read from its first event on, chip-select high. -/
theorem State.Twin.run_read {s t : State} (h : s.Twin t) (seq : s.seq = .pos op 0 .assert) (hp : s.prim op 0 = some p)
    (high : s.cs = true) (n : Nat) : (s.run n).Twin (t.run n) := by
  have seq' : t.seq = .pos op 0 .assert := h.seq_eq.trans seq
  have hp' : t.prim op 0 = some p := (h.prim_eq op 0).trans hp
  have opened : (s.openFrame op 0 p).Twin (t.openFrame op 0 p) := ((h.load p).driveCs false).goto _
  have here : (s.openFrame op 0 p).AtRead p 0 := by
    unfold State.openFrame
    rw [State.driveCs_fall (by simpa using high)]
    refine .inl ⟨rfl, rfl, ?_⟩
    cases p with
    | fastcmd op => cases captures
    | wreg8 ra v => cases captures
    | rreg8 ra => exact ⟨ra, rfl⟩
    | rreg16 ra => exact ⟨ra, rfl⟩
  have prim : (s.openFrame op 0 p).prim op 0 = some p := by rw [← hp]; simp [State.prim, State.openFrame]
  cases n with
  | zero => exact h
  | succ n =>
    exact State.run_twin (go := true) (by simp only [State.tick, seq, hp]) (by simp only [State.tick, seq', hp']) opened
      fun _ => opened.run_byte captures last rfl prim (primLen_pos p) here nofun

end

/-- Settles O41: the two runs of the read go on together. -/
theorem placeholdersDoNotMatter : Obligations.PlaceholdersDoNotMatter := by
  unfold Obligations.PlaceholdersDoNotMatter
  intro ra b c s high
  constructor
  · have prim : (s.acceptRreg8 ra).prim .rreg8 0 = some (.rreg8 ra) := congrArg (fun x => some (Prim.rreg8 x)) (argLow_setWidth ra)
    have start : (s.acceptRreg8 ra).Twin ({ s with buf21 := b }.acceptRreg8 ra) := ⟨b, s.buf31, s.buf32, s.trace, rfl⟩
    obtain ⟨_, _, _, _, eq⟩ := start.run_read rfl rfl rfl prim high runFuel
    exact ⟨_, _, exec_eq_complete rfl, exec_eq_complete rfl, by rw [State.complete, eq]; exact ⟨rfl, rfl, rfl, rfl, rfl⟩⟩
  · have prim : (s.acceptRreg16 ra).prim .rreg16 0 = some (.rreg16 ra) :=
      congrArg (fun x => some (Prim.rreg16 x)) (argLow_setWidth ra)
    have start : (s.acceptRreg16 ra).Twin ({ s with buf31 := b, buf32 := c }.acceptRreg16 ra) := ⟨s.buf21, b, c, s.trace, rfl⟩
    obtain ⟨_, _, _, _, eq⟩ := start.run_read rfl rfl rfl prim high runFuel
    exact ⟨_, _, exec_eq_complete rfl, exec_eq_complete rfl, by rw [State.complete, eq]; exact ⟨rfl, rfl, rfl, rfl, rfl⟩⟩

end Sys2Proof.Machine
end
